-- ==== Sys2Proof/Word.lean ====
section
/-! DEFINITION. The bytes of the floor line and the plainest arithmetic of the spec (00 section 6.5). -/

namespace Sys2Proof

/-- One byte of a frame. -/
abbrev Byte := BitVec 8
/-- A two-byte field of a frame. -/
abbrev Half := BitVec 16
/-- A four-byte field of a frame. -/
abbrev Word := BitVec 32

/-- Station numbers, ring slots, slab numbers, jobs, saw classes and material classes (00 section 6.4). -/
abbrev StationNo := Fin 8
abbrev SlotNo := Fin 16
abbrev SlabNo := Fin 512
abbrev JobNo := Fin 64
abbrev ClassNo := Fin 4
abbrev Material := Fin 8

/-- The greatest unsigned 32-bit figure. -/
def max32 : Nat := 4294967295

/-- *ceil* of the spec (00 section 6.5). -/
def ceilDiv (a b : Nat) : Nat := (a + b - 1) / b

/-- *round half up* of the spec (00 section 6.5). -/
def roundHalfUp (a b : Nat) : Nat := (2 * a + b) / (2 * b)

/-- Replace one element of a fixed table. -/
def upd {α : Type} {n : Nat} (v : Vector α n) (i : Fin n) (f : α → α) : Vector α n :=
  v.set i (f v[i])

/-- Apply one function to every element of a fixed table. -/
def updAll {α β : Type} {n : Nat} (v : Vector α n) (f : α → β) : Vector β n :=
  ⟨(v.toList.map f).toArray, by simp⟩

/-- An index of a table from a number, when it is one. -/
def index (n k : Nat) : Option (Fin n) := if h : k < n then some ⟨k, h⟩ else none

/-- The eight stations in order. -/
def allStations : List StationNo := [0, 1, 2, 3, 4, 5, 6, 7]

end Sys2Proof
end

