-- ==== Sys2Proof/Config.lean ====
section
/-! DEFINITION. What the part fixes once and for all, and the one value the manual leaves free. -/

namespace Sys2Proof.Config

/-- FREE VALUE, DESIGN CHOICE, safe (R11: "Two frames that began to wait together may enter in either order"): the pick made at
the `n`-th entry at which several frames that began to wait together could be the next. It has no body that a
proof can see. Log 6. -/
opaque freePick : Nat → Nat

/-- IDENTIFY's vendor code, part code and revision (R16). -/
def vendorCode : Nat := 0x45A7
def partCode : Nat := 410
def revision : Nat := 1

/-- Node addresses (section 1.2): the cell computer, the part, and the highest source and destination. -/
def cellNode : Nat := 0
def partNode : Nat := 1
def lastNode : Nat := 62
def broadcast : Nat := 63

/-- The start delimiter of a frame (section 12.1). -/
def startDelimiter : Byte := 0xA6

/-- Places of an output queue, and the fill from which forwarded frames are refused (R10, R11). -/
def queuePlaces : Nat := 16
def forwardLimit : Nat := 12

/-- Places of the request queue (R12), of the two waiting lists of 8 (R35, R45), of a posting buffer (R152),
of the notice queue (R184) and of the slab table (R100). -/
def requestPlaces : Nat := 4
def waitingPlaces : Nat := 8
def bufferPlaces : Nat := 8
def noticePlaces : Nat := 32
def slabPlaces : Nat := 512

/-- The settle time of YARDKEY in ms (R125). -/
def settleTime : Nat := 20

/-- How many follow-up examinations one event carries out before it stops (log 14, DEDUCED: never reached). -/
def eventFuel : Nat := 8192

/-- How many requests one event can take from the request queue (log 14, DEDUCED: never reached). -/
def requestFuel : Nat := 16

end Sys2Proof.Config
end

