-- ==== Sys2Proof/Syntax.lean ====
section
/-! DEFINITION. The commands: one constructor of `Instr` for each row of spec/opcode_table.json, with the fields
the spec gives the frame, request or pin concerned (R196 to R205). -/

namespace Sys2Proof

/-- The two floor line ports (section 1.1): U faces the cell computer, D the machines. -/
inductive Port where
  | U | D
  deriving DecidableEq, Repr

/-- The level of a pin. -/
inductive Level where
  | low | high
  deriving DecidableEq, Repr

/-- The payload of a CUT ORDER as received (R197). -/
structure OrderFields where
  job : Byte
  source : Half
  len : Half
  wid : Half
  mode : Byte
  chain : Byte
  summaryNow : Byte
  tag : Half
  deriving DecidableEq, Repr

/-- The class entry of CLASS WRITE as received (R203). -/
structure ClassFields where
  kerf : Byte
  depth : Byte
  flow : Half
  feed0 : Byte
  feed1 : Byte
  feed2 : Byte
  feed3 : Byte
  feed4 : Byte
  feed5 : Byte
  feed6 : Byte
  feed7 : Byte
  lmin : Half
  wmin : Half
  deriving DecidableEq, Repr

/-- The arguments of SLAB WRITE as received (R105, R205). -/
structure SlabFields where
  number : Half
  createOnly : Byte
  material : Byte
  thickness : Byte
  len : Half
  wid : Half
  generation : Byte
  parent : Half
  basis : Word
  yard : Half
  deriving DecidableEq, Repr

/-- The water constants of WATER WRITE as received (R128, R203). -/
structure WaterFields where
  capacity : Word
  lowMark : Word
  hysteresis : Word
  makeupOn : Word
  makeupOff : Word
  turbidityLimit : Half
  sampleTimeout : Byte
  dailyAllowance : Word
  plantNode : Byte
  deriving DecidableEq, Repr

/-- A MANAGE REQUEST's code and arguments (R203); `malformed` stands for every payload that R14 answers
BAD_VALUE. -/
inductive ReqBody where
  | malformed
  | identify
  | lineReset
  | mapRead (station : Byte)
  | mapWrite (station node cls enabled : Byte)
  | releaseStation (station : Byte)
  | serviceStation (station : Byte)
  | classRead (cls : Byte)
  | classWrite (cls : Byte) (entry : ClassFields)
  | pipeRead
  | pipeWrite (percent grace : Half) (stopTimeout : Byte)
  | slabWrite (fields : SlabFields)
  | slabRemove (number : Half)
  | slabRead (number : Half)
  | slabScan (start : Half)
  | stockCount
  | lockRange (low high : Half) (invert : Byte)
  | lockAll
  | lockHard
  | lockQuery
  | waterWrite (fields : WaterFields)
  | waterRead
  | waterState
  | newDay
  | postingWrite (period : Byte) (limit : Half)
  | postingRead
  | auditFreeze
  | auditThaw
  | jobOpen (job : Byte) (reference : Word)
  | jobClose (job : Byte)
  | jobDiscard (job : Byte)
  | jobRead (job : Byte)
  | ratesWrite (water run : Word) (energy : Half)
  | ratesRead
  | noticeRead
  | ackAttention
  | summaryWrite (period : Byte)
  | summaryRead
  deriving DecidableEq, Repr

/-- A request of MGU's queue: the code and tag its answer carries (R12 to R14), and what it asks. -/
structure Request where
  code : Byte
  tag : Byte
  body : ReqBody
  deriving DecidableEq, Repr

/-- The commands, one per row of spec/opcode_table.json, in the table's order. -/
inductive Instr where
  /-- POWER_UP (R18), with the levels of LOCKEN and YARDKEY as the power-on sequence completes. -/
  | powerUp (locken yardkey : Level)
  /-- RESETN_ASSERT (R18). -/
  | resetnAssert
  /-- RESETN_RELEASE (R18). -/
  | resetnRelease
  /-- RECEIVE_PAIR_IDLE (R2). -/
  | receivePairIdle (port : Port)
  /-- BAD_START_BYTE (R3). -/
  | badStartByte (port : Port) (byte : Byte)
  /-- PAYLOAD_LENGTH_ABOVE_64 (R3). -/
  | payloadLengthAbove64 (port : Port) (length : Byte)
  /-- TRUNCATED_FRAME (R2). -/
  | truncatedFrame (port : Port)
  /-- FRAME_RECEIVED (R6): the bytes after the start delimiter and whether LIF hands the frame over in the same
  event (log 5, DESIGN CHOICE). -/
  | frameReceived (port : Port) (dst src kind : Byte) (payload : List Byte) (crc : Half) (handed : Bool)
  /-- FOREIGN_MANAGE (R8). -/
  | foreignManage (port : Port) (dst src : Byte) (payload : List Byte)
  /-- MANAGE_REQUEST_RECEIVED (R12): a MANAGE REQUEST from node 0 to node 1 with this payload. -/
  | manageRequestReceived (payload : List Byte)
  /-- MALFORMED_REQUEST (R14). -/
  | malformedRequest (payload : List Byte)
  /-- IDENTIFY (R16). -/
  | identify (tag : Byte)
  /-- LINE_RESET (R17). -/
  | lineReset (tag : Byte)
  /-- LINE_RESET_COMPLETE (R194). -/
  | lineResetComplete
  /-- MAP_READ (R20). -/
  | mapRead (tag station : Byte)
  /-- MAP_WRITE (R21). -/
  | mapWrite (tag station node cls enabled : Byte)
  /-- RELEASE_STATION (R23). -/
  | releaseStation (tag station : Byte)
  /-- SERVICE_STATION (R24). -/
  | serviceStation (tag station : Byte)
  /-- CLASS_READ (R64). -/
  | classRead (tag cls : Byte)
  /-- CLASS_WRITE (R63). -/
  | classWrite (tag cls : Byte) (entry : ClassFields)
  /-- PIPE_READ (R89). -/
  | pipeRead (tag : Byte)
  /-- PIPE_WRITE (R89). -/
  | pipeWrite (tag : Byte) (percent grace : Half) (stopTimeout : Byte)
  /-- SLAB_WRITE (R105). -/
  | slabWrite (tag : Byte) (fields : SlabFields)
  /-- SLAB_REMOVE (R108). -/
  | slabRemove (tag : Byte) (number : Half)
  /-- SLAB_READ (R109). -/
  | slabRead (tag : Byte) (number : Half)
  /-- SLAB_SCAN (R110). -/
  | slabScan (tag : Byte) (start : Half)
  /-- STOCK_COUNT (R111). -/
  | stockCount (tag : Byte)
  /-- LOCK_RANGE (R121). -/
  | lockRange (tag : Byte) (low high : Half) (invert : Byte)
  /-- LOCK_ALL (R122). -/
  | lockAll (tag : Byte)
  /-- LOCK_HARD (R123). -/
  | lockHard (tag : Byte)
  /-- LOCK_QUERY (R124). -/
  | lockQuery (tag : Byte)
  /-- WATER_WRITE (R129). -/
  | waterWrite (tag : Byte) (fields : WaterFields)
  /-- WATER_READ (R130). -/
  | waterRead (tag : Byte)
  /-- WATER_STATE (R147). -/
  | waterState (tag : Byte)
  /-- NEW_DAY (R146). -/
  | newDay (tag : Byte)
  /-- POSTING_WRITE (R159). -/
  | postingWrite (tag period : Byte) (limit : Half)
  /-- POSTING_READ (R159). -/
  | postingRead (tag : Byte)
  /-- AUDIT_FREEZE (R160). -/
  | auditFreeze (tag : Byte)
  /-- FREEZE_TAKES_EFFECT (R160). -/
  | freezeTakesEffect
  /-- AUDIT_THAW (R162). -/
  | auditThaw (tag : Byte)
  /-- JOB_OPEN (R173). -/
  | jobOpen (tag job : Byte) (reference : Word)
  /-- JOB_CLOSE (R174). -/
  | jobClose (tag job : Byte)
  /-- JOB_DISCARD (R175). -/
  | jobDiscard (tag job : Byte)
  /-- JOB_READ (R176). -/
  | jobRead (tag job : Byte)
  /-- RATES_WRITE (R179). -/
  | ratesWrite (tag : Byte) (water run : Word) (energy : Half)
  /-- RATES_READ (R179). -/
  | ratesRead (tag : Byte)
  /-- NOTICE_READ (R190). -/
  | noticeRead (tag : Byte)
  /-- ACK_ATTENTION (R189). -/
  | ackAttention (tag : Byte)
  /-- SUMMARY_WRITE (R191). -/
  | summaryWrite (tag period : Byte)
  /-- SUMMARY_READ (R191). -/
  | summaryRead (tag : Byte)
  /-- CUT_ORDER (R43): a CUT ORDER frame from `src` to `dst`. -/
  | cutOrder (dst src : Byte) (order : OrderFields)
  /-- HOLD (R36): a STATION COMMAND frame from `src` to `dst`; so are the next four. -/
  | hold (dst src : Byte)
  /-- RESUME (R37). -/
  | resume (dst src : Byte)
  /-- ABORT (R38). -/
  | abort (dst src : Byte)
  /-- FLUSH (R59). -/
  | flush (dst src : Byte)
  /-- UNKNOWN_STATION_COMMAND (R35). -/
  | unknownStationCommand (dst src code : Byte)
  /-- PANEL_CLAIM (R31): a frame from the saw node `src`; so are the next six. -/
  | panelClaim (dst src : Byte)
  /-- PANEL_RELEASE (R32). -/
  | panelRelease (dst src : Byte)
  /-- PANEL_STOP (R33). -/
  | panelStop (dst src : Byte)
  /-- PANEL_RESUME (R33). -/
  | panelResume (dst src : Byte)
  /-- CUT_PASS (R90). -/
  | cutPass (dst src ticket pass : Byte)
  /-- CUT_DONE (R91). -/
  | cutDone (dst src ticket outcome : Byte) (run : Word)
  /-- USAGE (R153). -/
  | usage (dst src : Byte) (water energy run : Half)
  /-- DRAIN_APPLICATION (R155) of one station's buffer. -/
  | drainApplication (station : StationNo)
  /-- WATER_SAMPLE (R132). -/
  | waterSample (dst src : Byte) (level : Word) (turbidity : Half) (makeup : Word)
  /-- OVERRUN_EXPIRY (R86). -/
  | overrunExpiry (station : StationNo)
  /-- STOP_TIMEOUT (R88). -/
  | stopTimeout (station : StationNo)
  /-- SAMPLE_TIMEOUT (R135). -/
  | sampleTimeout
  /-- COALESCING_TIMER_EXPIRY (R157). -/
  | coalescingTimerExpiry (station : StationNo)
  /-- FREEZE_EXPIRY (R163). -/
  | freezeExpiry
  /-- SUMMARY_TIMER_EXPIRY (R191). -/
  | summaryTimerExpiry
  /-- YARDKEY_CHANGE (R125): the level YARDKEY is sampled at. -/
  | yardkeyChange (level : Level)
  /-- YARDKEY_SETTLE_EXPIRY (R126). -/
  | yardkeySettleExpiry
  /-- FRAME_SENT (R9). -/
  | frameSent (port : Port)
  /-- ORIGINATED_FRAME_ENTERS (R11). -/
  | originatedFrameEnters (port : Port)
  /-- PROGRAM_FRAME_ENTERS (R85). -/
  | programFrameEnters (station : StationNo)
  /-- SAW_STOP_ENTERS (R87). -/
  | sawStopEnters (station : StationNo)
  /-- MAKEUP_OPEN_ENTERS (R145). -/
  | makeupOpenEnters
  /-- RECORD_HOLD_RECORD_ENTERS (R94). -/
  | recordHoldRecordEnters (station : StationNo)
  /-- SPENT_SLOT_RECORD_ENTERS (R41). -/
  | spentSlotRecordEnters (station : StationNo) (slot : SlotNo)
  /-- ON_DECK_PLACE_RECORD_ENTERS (R79). -/
  | onDeckPlaceRecordEnters (station : StationNo)
  /-- MANAGE_ANSWER_ENTERS (R12). -/
  | manageAnswerEnters
  /-- JOB_READ_SEGMENT_ENTERS (R204). -/
  | jobReadSegmentEnters
  /-- ATTENTION_ENTERS (R194). -/
  | attentionEnters
  /-- START_DELIMITER_RECEIVED (R2). -/
  | startDelimiterReceived (port : Port)
  /-- TRANSMISSION_START (R9). -/
  | transmissionStart (port : Port)
  deriving DecidableEq, Repr

end Sys2Proof
end

