-- ==== Sys2Proof/WellFormed.lean ====
section
/-! DEFINITION. Which commands are frames and events that the floor line can bring to the part: R3's address and
length limits, the first byte of BAD_START_BYTE, the length of PAYLOAD_LENGTH_ABOVE_64, the sources and kinds of R8,
and the codes of R35. The meanings are total: an ill-formed command has a meaning too. -/

namespace Sys2Proof

/-- A frame whose destination is at most 63 and whose source is at most 62 passes R3's address check. -/
def nodesOk (dst src : Byte) : Bool :=
  decide (dst.toNat ≤ Config.broadcast) && decide (src.toNat ≤ Config.lastNode)

/-- A payload of at most 64 bytes (section 12.1). -/
def payloadOk (payload : List Byte) : Bool := decide (payload.length ≤ 64)

/-- The station command codes (R195). -/
def isStationCommand (code : Byte) : Bool := decide (1 ≤ code.toNat) && decide (code.toNat ≤ 4)

/-- R8: a MANAGE REQUEST that FOREIGN_MANAGE stands for, addressed to the part by another node than the cell
computer, or arriving on port D. -/
def foreignOk (port : Port) (dst src : Byte) : Bool :=
  match port with
  | .U => decide (dst.toNat = Config.partNode) && decide (src.toNat ≠ Config.cellNode)
  | .D => true

/-- The commands that stand for an event of the line as the spec describes it. -/
def WellFormed (i : Instr) : Bool :=
  match i with
  | .powerUp _ _ => true
  | .resetnAssert => true
  | .resetnRelease => true
  | .receivePairIdle _ => true
  | .badStartByte _ byte => decide (byte ≠ Config.startDelimiter)
  | .payloadLengthAbove64 _ length => decide (64 < length.toNat)
  | .truncatedFrame _ => true
  | .frameReceived _ _ _ _ payload _ _ => payloadOk payload
  | .foreignManage port dst src payload => nodesOk dst src && payloadOk payload && foreignOk port dst src
  | .manageRequestReceived payload => payloadOk payload
  | .malformedRequest payload => payloadOk payload
  | .identify _ => true
  | .lineReset _ => true
  | .lineResetComplete => true
  | .mapRead _ _ => true
  | .mapWrite _ _ _ _ _ => true
  | .releaseStation _ _ => true
  | .serviceStation _ _ => true
  | .classRead _ _ => true
  | .classWrite _ _ _ => true
  | .pipeRead _ => true
  | .pipeWrite _ _ _ _ => true
  | .slabWrite _ _ => true
  | .slabRemove _ _ => true
  | .slabRead _ _ => true
  | .slabScan _ _ => true
  | .stockCount _ => true
  | .lockRange _ _ _ _ => true
  | .lockAll _ => true
  | .lockHard _ => true
  | .lockQuery _ => true
  | .waterWrite _ _ => true
  | .waterRead _ => true
  | .waterState _ => true
  | .newDay _ => true
  | .postingWrite _ _ _ => true
  | .postingRead _ => true
  | .auditFreeze _ => true
  | .freezeTakesEffect => true
  | .auditThaw _ => true
  | .jobOpen _ _ _ => true
  | .jobClose _ _ => true
  | .jobDiscard _ _ => true
  | .jobRead _ _ => true
  | .ratesWrite _ _ _ _ => true
  | .ratesRead _ => true
  | .noticeRead _ => true
  | .ackAttention _ => true
  | .summaryWrite _ _ => true
  | .summaryRead _ => true
  | .cutOrder dst src _ => nodesOk dst src
  | .hold dst src => nodesOk dst src
  | .resume dst src => nodesOk dst src
  | .abort dst src => nodesOk dst src
  | .flush dst src => nodesOk dst src
  | .unknownStationCommand dst src code => nodesOk dst src && !isStationCommand code
  | .panelClaim dst src => nodesOk dst src
  | .panelRelease dst src => nodesOk dst src
  | .panelStop dst src => nodesOk dst src
  | .panelResume dst src => nodesOk dst src
  | .cutPass dst src _ _ => nodesOk dst src
  | .cutDone dst src _ _ _ => nodesOk dst src
  | .usage dst src _ _ _ => nodesOk dst src
  | .drainApplication _ => true
  | .waterSample dst src _ _ _ => nodesOk dst src
  | .overrunExpiry _ => true
  | .stopTimeout _ => true
  | .sampleTimeout => true
  | .coalescingTimerExpiry _ => true
  | .freezeExpiry => true
  | .summaryTimerExpiry => true
  | .yardkeyChange _ => true
  | .yardkeySettleExpiry => true
  | .frameSent _ => true
  | .originatedFrameEnters _ => true
  | .programFrameEnters _ => true
  | .sawStopEnters _ => true
  | .makeupOpenEnters => true
  | .recordHoldRecordEnters _ => true
  | .spentSlotRecordEnters _ _ => true
  | .onDeckPlaceRecordEnters _ => true
  | .manageAnswerEnters => true
  | .jobReadSegmentEnters => true
  | .attentionEnters => true
  | .startDelimiterReceived _ => true
  | .transmissionStart _ => true

end Sys2Proof
end

