-- ==== Sys2Proof/Decode.lean ====
section
/-! DEFINITION. Bytes to commands and back: the fields of a payload most significant byte first (R195), the CRC (R1),
the codes and arguments of a MANAGE REQUEST (R14, R203), the payloads of the frames the part acts on (R196 to R199), and
`decodeTableWord` over the rows of the table that give bits (none does). Total: what names nothing is refused by
name. -/

namespace Sys2Proof

/-! ### Fields, most significant byte first (R195) -/

/-- A two-byte field as it is sent. -/
def put16 (x : Half) : List Byte := [x.extractLsb' 8 8, x.extractLsb' 0 8]

/-- A four-byte field as it is sent. -/
def put32 (x : Word) : List Byte :=
  [x.extractLsb' 24 8, x.extractLsb' 16 8, x.extractLsb' 8 8, x.extractLsb' 0 8]

/-- A number of the part's state in a field of one, two or four bytes. -/
def num8 (n : Nat) : List Byte := [BitVec.ofNat 8 n]
def num16 (n : Nat) : List Byte := put16 (BitVec.ofNat 16 n)
def num32 (n : Nat) : List Byte := put32 (BitVec.ofNat 32 n)

/-- A flag as a byte. -/
def numFlag (b : Bool) : List Byte := if b then [1] else [0]

/-- Take a field off the front of the bytes. -/
def get8 (bytes : List Byte) : Option (Byte × List Byte) :=
  match bytes with
  | a :: rest => some (a, rest)
  | _ => none

def get16 (bytes : List Byte) : Option (Half × List Byte) :=
  match bytes with
  | a :: b :: rest => some (a ++ b, rest)
  | _ => none

def get32 (bytes : List Byte) : Option (Word × List Byte) :=
  match bytes with
  | a :: b :: c :: d :: rest => some (a ++ b ++ c ++ d, rest)
  | _ => none

/-! ### The CRC (R1) -/

/-- One bit of the CRC: shift left, and subtract the generator 0x1021 when a one leaves. -/
def crcBit (crc : Half) : Half :=
  if crc.msb then (crc <<< 1) ^^^ 0x1021 else crc <<< 1

/-- One byte of the CRC, most significant bit first. -/
def crcByte (crc : Half) (b : Byte) : Half :=
  crcBit (crcBit (crcBit (crcBit (crcBit (crcBit (crcBit (crcBit
    (crc ^^^ (b.setWidth 16 <<< 8)))))))))

/-- The CRC of a run of bytes, from the initial value 0xFFFF (R1). -/
def crc16 (bytes : List Byte) : Half := bytes.foldl crcByte 0xFFFF

/-- The CRC a frame with these fields carries: over the destination, source, kind, length and payload bytes. -/
def frameCrc (dst src kind : Byte) (payload : List Byte) : Half :=
  crc16 (dst :: src :: kind :: BitVec.ofNat 8 payload.length :: payload)

/-- The bytes of a frame on the wire (section 12.1). -/
def frameBytes (dst src kind : Byte) (payload : List Byte) : List Byte :=
  Config.startDelimiter :: dst :: src :: kind :: BitVec.ofNat 8 payload.length :: payload
    ++ put16 (frameCrc dst src kind payload)

/-! ### Payloads of the frames the part acts on (R197 to R199) -/

def decodeOrder (payload : List Byte) : Option OrderFields :=
  match payload with
  | [job, s1, s0, l1, l0, w1, w0, mode, chain, now, t1, t0] =>
    some ⟨job, s1 ++ s0, l1 ++ l0, w1 ++ w0, mode, chain, now, t1 ++ t0⟩
  | _ => none

def encodeOrder (o : OrderFields) : List Byte :=
  o.job :: put16 o.source ++ put16 o.len ++ put16 o.wid ++ [o.mode, o.chain, o.summaryNow] ++ put16 o.tag

/-- The figures of a USAGE frame: water, energy, run (R198). -/
def decodeUsage (payload : List Byte) : Option (Half × Half × Half) :=
  match payload with
  | [w1, w0, e1, e0, r1, r0] => some (w1 ++ w0, e1 ++ e0, r1 ++ r0)
  | _ => none

def encodeUsage (water energy run : Half) : List Byte := put16 water ++ put16 energy ++ put16 run

/-- A CUT DONE's ticket number, outcome code and actual run (R198). -/
def decodeCutDone (payload : List Byte) : Option (Byte × Byte × Word) :=
  match payload with
  | [ticket, outcome, a, b, c, d] => some (ticket, outcome, a ++ b ++ c ++ d)
  | _ => none

def encodeCutDone (ticket outcome : Byte) (run : Word) : List Byte := ticket :: outcome :: put32 run

/-- A WATER SAMPLE's level, turbidity and make-up volume (R199). -/
def decodeSample (payload : List Byte) : Option (Word × Half × Word) :=
  match payload with
  | [a, b, c, d, t1, t0, e, f, g, h] => some (a ++ b ++ c ++ d, t1 ++ t0, e ++ f ++ g ++ h)
  | _ => none

def encodeSample (level : Word) (turbidity : Half) (makeup : Word) : List Byte :=
  put32 level ++ put16 turbidity ++ put32 makeup

/-! ### MANAGE REQUEST (R14, R203) -/

def getClass (a : List Byte) : Option ReqBody := do
  let (cls, a) ← get8 a
  let (kerf, a) ← get8 a
  let (depth, a) ← get8 a
  let (flow, a) ← get16 a
  let (f0, a) ← get8 a
  let (f1, a) ← get8 a
  let (f2, a) ← get8 a
  let (f3, a) ← get8 a
  let (f4, a) ← get8 a
  let (f5, a) ← get8 a
  let (f6, a) ← get8 a
  let (f7, a) ← get8 a
  let (lmin, a) ← get16 a
  let (wmin, _) ← get16 a
  return .classWrite cls ⟨kerf, depth, flow, f0, f1, f2, f3, f4, f5, f6, f7, lmin, wmin⟩

def putClass (c : ClassFields) : List Byte :=
  [c.kerf, c.depth] ++ put16 c.flow
    ++ [c.feed0, c.feed1, c.feed2, c.feed3, c.feed4, c.feed5, c.feed6, c.feed7]
    ++ put16 c.lmin ++ put16 c.wmin

def getSlab (a : List Byte) : Option ReqBody := do
  let (number, a) ← get16 a
  let (createOnly, a) ← get8 a
  let (material, a) ← get8 a
  let (thickness, a) ← get8 a
  let (len, a) ← get16 a
  let (wid, a) ← get16 a
  let (generation, a) ← get8 a
  let (parent, a) ← get16 a
  let (basis, a) ← get32 a
  let (yard, _) ← get16 a
  return .slabWrite ⟨number, createOnly, material, thickness, len, wid, generation, parent, basis, yard⟩

def putSlab (f : SlabFields) : List Byte :=
  put16 f.number ++ [f.createOnly, f.material, f.thickness] ++ put16 f.len ++ put16 f.wid
    ++ [f.generation] ++ put16 f.parent ++ put32 f.basis ++ put16 f.yard

def getWater (a : List Byte) : Option ReqBody := do
  let (capacity, a) ← get32 a
  let (lowMark, a) ← get32 a
  let (hysteresis, a) ← get32 a
  let (makeupOn, a) ← get32 a
  let (makeupOff, a) ← get32 a
  let (turbidityLimit, a) ← get16 a
  let (sampleTimeout, a) ← get8 a
  let (dailyAllowance, a) ← get32 a
  let (plantNode, _) ← get8 a
  return .waterWrite
    ⟨capacity, lowMark, hysteresis, makeupOn, makeupOff, turbidityLimit, sampleTimeout, dailyAllowance, plantNode⟩

def putWater (f : WaterFields) : List Byte :=
  put32 f.capacity ++ put32 f.lowMark ++ put32 f.hysteresis ++ put32 f.makeupOn ++ put32 f.makeupOff
    ++ put16 f.turbidityLimit ++ [f.sampleTimeout] ++ put32 f.dailyAllowance ++ [f.plantNode]

def getPipe (a : List Byte) : Option ReqBody := do
  let (percent, a) ← get16 a
  let (grace, a) ← get16 a
  let (stop, _) ← get8 a
  return .pipeWrite percent grace stop

def getRange (a : List Byte) : Option ReqBody := do
  let (low, a) ← get16 a
  let (high, a) ← get16 a
  let (invert, _) ← get8 a
  return .lockRange low high invert

def getMap (a : List Byte) : Option ReqBody := do
  let (station, a) ← get8 a
  let (node, a) ← get8 a
  let (cls, a) ← get8 a
  let (enabled, _) ← get8 a
  return .mapWrite station node cls enabled

def getPosting (a : List Byte) : Option ReqBody := do
  let (period, a) ← get8 a
  let (limit, _) ← get16 a
  return .postingWrite period limit

def getJobOpen (a : List Byte) : Option ReqBody := do
  let (job, a) ← get8 a
  let (reference, _) ← get32 a
  return .jobOpen job reference

def getRates (a : List Byte) : Option ReqBody := do
  let (water, a) ← get32 a
  let (run, a) ← get32 a
  let (energy, _) ← get16 a
  return .ratesWrite water run energy

/-- One argument byte. -/
def getByte (f : Byte → ReqBody) (a : List Byte) : Option ReqBody := (get8 a).map fun x => f x.1

/-- One argument of two bytes. -/
def getHalf (f : Half → ReqBody) (a : List Byte) : Option ReqBody := (get16 a).map fun x => f x.1

/-- The arguments of a request code (R203); none for a code that names no request and for arguments too short
(R14). Bytes beyond the arguments are ignored. -/
def decodeBody (code : Nat) (a : List Byte) : Option ReqBody :=
  match code with
  | 0x01 => some .identify
  | 0x02 => some .lineReset
  | 0x10 => getByte .mapRead a
  | 0x11 => getMap a
  | 0x12 => getByte .releaseStation a
  | 0x13 => getByte .serviceStation a
  | 0x18 => getByte .classRead a
  | 0x19 => getClass a
  | 0x1C => some .pipeRead
  | 0x1D => getPipe a
  | 0x20 => getSlab a
  | 0x21 => getHalf .slabRemove a
  | 0x22 => getHalf .slabRead a
  | 0x23 => getHalf .slabScan a
  | 0x24 => some .stockCount
  | 0x28 => getRange a
  | 0x29 => some .lockAll
  | 0x2A => some .lockHard
  | 0x2B => some .lockQuery
  | 0x30 => getWater a
  | 0x31 => some .waterRead
  | 0x32 => some .waterState
  | 0x33 => some .newDay
  | 0x38 => getPosting a
  | 0x39 => some .postingRead
  | 0x3A => some .auditFreeze
  | 0x3B => some .auditThaw
  | 0x40 => getJobOpen a
  | 0x41 => getByte .jobClose a
  | 0x42 => getByte .jobDiscard a
  | 0x43 => getByte .jobRead a
  | 0x44 => getRates a
  | 0x45 => some .ratesRead
  | 0x48 => some .noticeRead
  | 0x49 => some .ackAttention
  | 0x4A => getByte .summaryWrite a
  | 0x4B => some .summaryRead
  | _ => none

/-- A MANAGE REQUEST's payload: a request, or one that R14 answers BAD_VALUE (with the code received or 0, and the
tag received or 0). -/
def decodeRequest (payload : List Byte) : Request :=
  match payload with
  | [] => ⟨0, 0, .malformed⟩
  | [code] => ⟨code, 0, .malformed⟩
  | code :: tag :: args => ⟨code, tag, (decodeBody code.toNat args).getD .malformed⟩

/-- The code of a request (R203); `malformed` has none of its own. -/
def bodyCode (b : ReqBody) : Byte :=
  match b with
  | .malformed => 0x00
  | .identify => 0x01
  | .lineReset => 0x02
  | .mapRead _ => 0x10
  | .mapWrite _ _ _ _ => 0x11
  | .releaseStation _ => 0x12
  | .serviceStation _ => 0x13
  | .classRead _ => 0x18
  | .classWrite _ _ => 0x19
  | .pipeRead => 0x1C
  | .pipeWrite _ _ _ => 0x1D
  | .slabWrite _ => 0x20
  | .slabRemove _ => 0x21
  | .slabRead _ => 0x22
  | .slabScan _ => 0x23
  | .stockCount => 0x24
  | .lockRange _ _ _ => 0x28
  | .lockAll => 0x29
  | .lockHard => 0x2A
  | .lockQuery => 0x2B
  | .waterWrite _ => 0x30
  | .waterRead => 0x31
  | .waterState => 0x32
  | .newDay => 0x33
  | .postingWrite _ _ => 0x38
  | .postingRead => 0x39
  | .auditFreeze => 0x3A
  | .auditThaw => 0x3B
  | .jobOpen _ _ => 0x40
  | .jobClose _ => 0x41
  | .jobDiscard _ => 0x42
  | .jobRead _ => 0x43
  | .ratesWrite _ _ _ => 0x44
  | .ratesRead => 0x45
  | .noticeRead => 0x48
  | .ackAttention => 0x49
  | .summaryWrite _ => 0x4A
  | .summaryRead => 0x4B

/-- The argument bytes of a request, in the order they are sent (R203). -/
def bodyArgs (b : ReqBody) : List Byte :=
  match b with
  | .malformed => []
  | .identify => []
  | .lineReset => []
  | .mapRead station => [station]
  | .mapWrite station node cls enabled => [station, node, cls, enabled]
  | .releaseStation station => [station]
  | .serviceStation station => [station]
  | .classRead cls => [cls]
  | .classWrite cls entry => cls :: putClass entry
  | .pipeRead => []
  | .pipeWrite percent grace stop => put16 percent ++ put16 grace ++ [stop]
  | .slabWrite fields => putSlab fields
  | .slabRemove number => put16 number
  | .slabRead number => put16 number
  | .slabScan start => put16 start
  | .stockCount => []
  | .lockRange low high invert => put16 low ++ put16 high ++ [invert]
  | .lockAll => []
  | .lockHard => []
  | .lockQuery => []
  | .waterWrite fields => putWater fields
  | .waterRead => []
  | .waterState => []
  | .newDay => []
  | .postingWrite period limit => period :: put16 limit
  | .postingRead => []
  | .auditFreeze => []
  | .auditThaw => []
  | .jobOpen job reference => job :: put32 reference
  | .jobClose job => [job]
  | .jobDiscard job => [job]
  | .jobRead job => [job]
  | .ratesWrite water run energy => put32 water ++ put32 run ++ put16 energy
  | .ratesRead => []
  | .noticeRead => []
  | .ackAttention => []
  | .summaryWrite period => [period]
  | .summaryRead => []

/-- The payload of a MANAGE REQUEST for a request of the table. -/
def encodeRequest (tag : Byte) (b : ReqBody) : List Byte := bodyCode b :: tag :: bodyArgs b

/-- The request that a tag and a body make: with its code (R203). -/
def requestOf (tag : Byte) (b : ReqBody) : Request := ⟨bodyCode b, tag, b⟩

/-! ### The frame a command stands for (R196 to R203) -/

/-- A frame's fields and the port it arrives on. -/
structure Wire where
  port : Port
  dst : Byte
  src : Byte
  kind : Byte
  payload : List Byte
  deriving DecidableEq, Repr

/-- R196: the payload length of a kind that the part acts on; MANAGE REQUEST has none of its own. -/
def payloadLength (kind : Byte) : Option Nat :=
  match kind.toNat with
  | 0x21 => some 12
  | 0x22 => some 1
  | 0x61 => some 6
  | 0x62 => some 2
  | 0x63 => some 6
  | 0x64 => some 0
  | 0x65 => some 0
  | 0x66 => some 0
  | 0x67 => some 0
  | 0x71 => some 10
  | _ => none

/-- A MANAGE REQUEST of the cell computer with this payload. -/
def manageWire (payload : List Byte) : Wire := ⟨.U, 1, 0, 0x30, payload⟩

/-- The frame that a command stands for; none for FRAME_RECEIVED, which carries its own, and for the pins, the timers
and the part's own events. -/
def wireOf (i : Instr) : Option Wire :=
  match i with
  | .foreignManage port dst src payload => some ⟨port, dst, src, 0x30, payload⟩
  | .manageRequestReceived payload => some (manageWire payload)
  | .malformedRequest payload =>
    if (decodeRequest payload).body = .malformed then some (manageWire payload) else none
  | .powerUp _ _ => none
  | .resetnAssert => none
  | .resetnRelease => none
  | .receivePairIdle _ => none
  | .badStartByte _ _ => none
  | .payloadLengthAbove64 _ _ => none
  | .truncatedFrame _ => none
  | .frameReceived _ _ _ _ _ _ _ => none
  | .identify tag => some (manageWire (encodeRequest tag .identify))
  | .lineReset tag => some (manageWire (encodeRequest tag .lineReset))
  | .lineResetComplete => none
  | .mapRead tag station => some (manageWire (encodeRequest tag (.mapRead station)))
  | .mapWrite tag station node cls enabled => some (manageWire (encodeRequest tag (.mapWrite station node cls enabled)))
  | .releaseStation tag station => some (manageWire (encodeRequest tag (.releaseStation station)))
  | .serviceStation tag station => some (manageWire (encodeRequest tag (.serviceStation station)))
  | .classRead tag cls => some (manageWire (encodeRequest tag (.classRead cls)))
  | .classWrite tag cls entry => some (manageWire (encodeRequest tag (.classWrite cls entry)))
  | .pipeRead tag => some (manageWire (encodeRequest tag .pipeRead))
  | .pipeWrite tag percent grace stopTimeout => some (manageWire (encodeRequest tag (.pipeWrite percent grace stopTimeout)))
  | .slabWrite tag fields => some (manageWire (encodeRequest tag (.slabWrite fields)))
  | .slabRemove tag number => some (manageWire (encodeRequest tag (.slabRemove number)))
  | .slabRead tag number => some (manageWire (encodeRequest tag (.slabRead number)))
  | .slabScan tag start => some (manageWire (encodeRequest tag (.slabScan start)))
  | .stockCount tag => some (manageWire (encodeRequest tag .stockCount))
  | .lockRange tag low high invert => some (manageWire (encodeRequest tag (.lockRange low high invert)))
  | .lockAll tag => some (manageWire (encodeRequest tag .lockAll))
  | .lockHard tag => some (manageWire (encodeRequest tag .lockHard))
  | .lockQuery tag => some (manageWire (encodeRequest tag .lockQuery))
  | .waterWrite tag fields => some (manageWire (encodeRequest tag (.waterWrite fields)))
  | .waterRead tag => some (manageWire (encodeRequest tag .waterRead))
  | .waterState tag => some (manageWire (encodeRequest tag .waterState))
  | .newDay tag => some (manageWire (encodeRequest tag .newDay))
  | .postingWrite tag period limit => some (manageWire (encodeRequest tag (.postingWrite period limit)))
  | .postingRead tag => some (manageWire (encodeRequest tag .postingRead))
  | .auditFreeze tag => some (manageWire (encodeRequest tag .auditFreeze))
  | .freezeTakesEffect => none
  | .auditThaw tag => some (manageWire (encodeRequest tag .auditThaw))
  | .jobOpen tag job reference => some (manageWire (encodeRequest tag (.jobOpen job reference)))
  | .jobClose tag job => some (manageWire (encodeRequest tag (.jobClose job)))
  | .jobDiscard tag job => some (manageWire (encodeRequest tag (.jobDiscard job)))
  | .jobRead tag job => some (manageWire (encodeRequest tag (.jobRead job)))
  | .ratesWrite tag water run energy => some (manageWire (encodeRequest tag (.ratesWrite water run energy)))
  | .ratesRead tag => some (manageWire (encodeRequest tag .ratesRead))
  | .noticeRead tag => some (manageWire (encodeRequest tag .noticeRead))
  | .ackAttention tag => some (manageWire (encodeRequest tag .ackAttention))
  | .summaryWrite tag period => some (manageWire (encodeRequest tag (.summaryWrite period)))
  | .summaryRead tag => some (manageWire (encodeRequest tag .summaryRead))
  | .cutOrder dst src order => some ⟨.U, dst, src, 0x21, encodeOrder order⟩
  | .hold dst src => some ⟨.U, dst, src, 0x22, [1]⟩
  | .resume dst src => some ⟨.U, dst, src, 0x22, [2]⟩
  | .abort dst src => some ⟨.U, dst, src, 0x22, [3]⟩
  | .flush dst src => some ⟨.U, dst, src, 0x22, [4]⟩
  | .unknownStationCommand dst src code => some ⟨.U, dst, src, 0x22, [code]⟩
  | .panelClaim dst src => some ⟨.D, dst, src, 0x64, []⟩
  | .panelRelease dst src => some ⟨.D, dst, src, 0x65, []⟩
  | .panelStop dst src => some ⟨.D, dst, src, 0x66, []⟩
  | .panelResume dst src => some ⟨.D, dst, src, 0x67, []⟩
  | .cutPass dst src ticket pass => some ⟨.D, dst, src, 0x62, [ticket, pass]⟩
  | .cutDone dst src ticket outcome run => some ⟨.D, dst, src, 0x61, encodeCutDone ticket outcome run⟩
  | .usage dst src water energy run => some ⟨.D, dst, src, 0x63, encodeUsage water energy run⟩
  | .drainApplication _ => none
  | .waterSample dst src level turbidity makeup => some ⟨.D, dst, src, 0x71, encodeSample level turbidity makeup⟩
  | .overrunExpiry _ => none
  | .stopTimeout _ => none
  | .sampleTimeout => none
  | .coalescingTimerExpiry _ => none
  | .freezeExpiry => none
  | .summaryTimerExpiry => none
  | .yardkeyChange _ => none
  | .yardkeySettleExpiry => none
  | .frameSent _ => none
  | .originatedFrameEnters _ => none
  | .programFrameEnters _ => none
  | .sawStopEnters _ => none
  | .makeupOpenEnters => none
  | .recordHoldRecordEnters _ => none
  | .spentSlotRecordEnters _ _ => none
  | .onDeckPlaceRecordEnters _ => none
  | .manageAnswerEnters => none
  | .jobReadSegmentEnters => none
  | .attentionEnters => none
  | .startDelimiterReceived _ => none
  | .transmissionStart _ => none

/-- No row of spec/opcode_table.json gives bits: no word spells a command (log 1, DESIGN CHOICE). -/
def decodeTableWord (_nbits _w : Nat) : Option Instr := none

end Sys2Proof
end

