-- ==== Sys2Proof/Machine/State.lean ====
section
/-! DEFINITION. The state of the part, block by block (00 section 4), plain data; and State.reset, the part right after
power-up. INVENTORY.md lists every field with its rule. -/

namespace Sys2Proof.Machine

/-! ### Frames and the two ports (LIF) -/

/-- A frame without its delimiter, length and CRC, which its fields give (section 12.1, R1). -/
structure Frame where
  dst : Byte
  src : Byte
  kind : Byte
  payload : List Byte
  deriving DecidableEq, Repr

/-- The states of a receiver (R2). -/
inductive Receiver where
  | settling | ready | receiving
  deriving DecidableEq, Repr

/-- What LIF does with a checked frame (R6, R7, R8). -/
inductive FrameClass where
  /-- a CUT ORDER for this station: intercepted for OQU -/
  | cutOrder (st : StationNo)
  /-- a STATION COMMAND for this station: intercepted for STC or OQU -/
  | command (st : StationNo)
  /-- a MANAGE REQUEST for MGU -/
  | manage
  /-- a MANAGE REQUEST that R8 does not take -/
  | foreign
  /-- a CUT DONE of this station's saw: intercepted for CPL -/
  | cutDone (st : StationNo)
  /-- act and forward: CPL -/
  | cutPass (st : StationNo)
  /-- act and forward: WBU and PSU -/
  | usage (st : StationNo)
  /-- act and forward: STC -/
  | panel (st : StationNo)
  /-- act and forward: WBU -/
  | sample
  /-- forwarded only -/
  | forward
  deriving DecidableEq, Repr

/-- A frame whose reception is complete and that is not yet handed over or offered (R18, R19), with its
classification, which is made when its reception is complete (R6). -/
structure Received where
  frame : Frame
  cls : FrameClass
  deriving DecidableEq, Repr

/-- The outcomes of a cut record (R195), in the order of their codes. -/
inductive CutOutcome where
  | done | aborted | overrun | sawFault | noReply | lineReset | predecessorLost | cancelled | queueFull | badOrder
  | jobNotOpen | slabAbsent | slabBusy | slabLocked | slabTwice | noSource | pieceTooLarge | recordsFull
  | waterTooLarge | chainRefused
  deriving DecidableEq, Repr

/-- The frames that wait in their blocks for an entry of their port's queue (R11), with the place each waits in. -/
inductive Waiter where
  /-- port D: the front of CPL's frame list of this station (R85); the frame is in the list -/
  | saw (st : StationNo)
  /-- port D: STC's SAW PAUSE or SAW RESUME of this station (R30) -/
  | pause (st : StationNo) (f : Frame)
  /-- port D: STC's PANEL ANSWER of this station (R34) -/
  | panelAnswer (st : StationNo) (f : Frame)
  /-- port D: WBU's MAKEUP OPEN (true) or MAKEUP CLOSE (false) (R145) -/
  | valve (opens : Bool) (f : Frame)
  /-- port U: STC's list of COMMAND ANSWER frames (R35) -/
  | commandAnswer (f : Frame)
  /-- port U: OQU's list of arrival refusals (R45) -/
  | arrivalRefusal (f : Frame)
  /-- port U: the record of a spent slot (R57) -/
  | spentSlot (st : StationNo) (slot : SlotNo) (f : Frame)
  /-- port U: the station's on-deck record place (R59), with the outcome of its record -/
  | onDeckPlace (st : StationNo) (outcome : CutOutcome) (f : Frame)
  /-- port U: the station's record hold (R94), and whether the record asks for a LINE SUMMARY -/
  | recordHold (st : StationNo) (summaryNow : Bool) (f : Frame)
  /-- port U: MGU's answer to the request in progress, with JOB READ's second segment when it is to follow (R204) -/
  | manageAnswer (next : Option Frame) (f : Frame)
  /-- port U: MGU's BUSY answer (R13) -/
  | busy (f : Frame)
  /-- port U: NTU's ATTENTION (R188) -/
  | attention (f : Frame)
  /-- port U: NTU's LINE SUMMARY (R192) -/
  | summary (f : Frame)
  deriving DecidableEq, Repr

/-- A waiting frame and the group of frames it began to wait together with: none until the event ends (log 7,
DEDUCED). -/
structure Waiting where
  who : Waiter
  group : Option Nat
  deriving DecidableEq, Repr

/-- One port (R2, R4, R9 to R11). -/
structure PortState where
  receiver : Receiver
  dropped : Nat
  received : List Received
  queue : List Frame
  sending : Bool
  waiting : List Waiting
  deriving DecidableEq, Repr

/-! ### MGU -/

/-- R16. -/
inductive StartCause where
  | powerUp | warm
  deriving DecidableEq, Repr

/-- What the request in progress waits for. -/
inductive Phase where
  /-- its answer's entry into port U's queue (R12) -/
  | answering
  /-- AUDIT FREEZE in PENDING (R160) -/
  | freezing
  /-- LINE RESET: the other blocks' parts; the stations whose start-of-reset drain is still in flight (R165) -/
  | resetting (draining : List StationNo)
  /-- LINE RESET: the entry of the ATTENTION that LINE_RESET_DONE formed (R194) -/
  | attending
  deriving DecidableEq, Repr

/-- The request in progress (R12). -/
structure InProgress where
  code : Byte
  tag : Byte
  phase : Phase
  deriving DecidableEq, Repr

structure Mgu where
  queue : List Request
  inProgress : Option InProgress
  cause : StartCause
  deriving DecidableEq, Repr

/-! ### STC -/

/-- A station map entry (section 2.1). -/
structure MapEntry where
  node : Nat
  cls : ClassNo
  enabled : Bool
  deriving DecidableEq, Repr

inductive StationState where
  | service | idle | running | held | stopping
  deriving DecidableEq, Repr

inductive Owner where
  | cell | panel
  deriving DecidableEq, Repr

/-- The reasons a hold set is drawn from (R22). -/
inductive Reason where
  | water | panel | cell
  deriving DecidableEq, Repr

structure HoldSet where
  water : Bool
  panel : Bool
  cell : Bool
  deriving DecidableEq, Repr

/-- A station's context (R22), and the SAW PAUSE or SAW RESUME held behind a program frame (R30). -/
structure StationCtx where
  state : StationState
  owner : Owner
  holds : HoldSet
  behind : Option Frame
  deriving DecidableEq, Repr

/-! ### TKC -/

/-- A saw class (R62). -/
structure SawClass where
  kerf : Nat
  depth : Nat
  flow : Nat
  feed : Vector Nat 8
  lmin : Nat
  wmin : Nat
  deriving DecidableEq, Repr

/-- A cut order's source (section 3.2). -/
inductive Source where
  | slab (n : SlabNo)
  | followOn
  deriving DecidableEq, Repr

/-- A present remnant of a ticket: its side along the source's length, its side across it, and whether it is
kept (R67, R68, R72). -/
structure Remnant where
  len : Nat
  wid : Nat
  kept : Bool
  deriving DecidableEq, Repr

/-- A cut ticket (R65). -/
structure Ticket where
  source : Source
  len : Nat
  wid : Nat
  thick : Nat
  material : Material
  gen : Nat
  kerf : Nat
  maxDepth : Nat
  flow : Nat
  feed : Nat
  lmin : Nat
  wmin : Nat
  rip : Bool
  ripKerf : Nat
  remA : Option Remnant
  cross : Bool
  crossKerf : Nat
  remB : Option Remnant
  ripLen : Nat
  ripOff : Nat
  crossLen : Nat
  crossOff : Nat
  cutLen : Nat
  passes : Nat
  passDepth : Nat
  lastDepth : Nat
  tEst : Nat
  water : Nat
  areaSource : Nat
  areaPiece : Nat
  areaKerf : Nat
  areaKept : Nat
  areaScrap : Nat
  planned : Nat
  deriving DecidableEq, Repr

/-! ### OQU -/

inductive Mode where
  | production | rework
  deriving DecidableEq, Repr

/-- The fields of an order as taken (R44). -/
structure Order where
  job : JobNo
  source : Source
  len : Nat
  wid : Nat
  mode : Mode
  chain : Bool
  summaryNow : Bool
  tag : Nat
  deriving DecidableEq, Repr

/-- The states of an order (section 3.5). -/
inductive OrderState where
  | queued | waiting | admitted | onDeck | active
  | closed (outcome : CutOutcome)
  deriving DecidableEq, Repr

/-- An order record (R42), with the remnant bound to a follow-on (R113). -/
structure OrderRec where
  order : Order
  slot : SlotNo
  state : OrderState
  chain : Nat
  pos : Nat
  ticket : Option Ticket
  remaining : Nat
  planned : Nat
  bound : Option SlabNo
  entered : Bool
  deriving DecidableEq, Repr

/-- The states of a chain (R48). -/
inductive ChainState where
  | opened | unclaimed | waiting | admitted
  deriving DecidableEq, Repr

/-- An entry of a chain list (R48); `id` tells the station's chains apart (log 8, DESIGN CHOICE). -/
structure Chain where
  id : Nat
  first : SlotNo
  members : Nat
  state : ChainState
  need : Nat
  deriving DecidableEq, Repr

/-- A station's ring and chain list (R40 to R42, R48). -/
structure Ring where
  slots : Vector (Option OrderRec) 16
  producer : SlotNo
  consumer : SlotNo
  chains : List Chain
  nextChain : Nat
  deriving DecidableEq, Repr

/-! ### CPL -/

inductive Timer where
  | stopped
  | running (ms : Nat)
  | paused (ms : Nat)
  deriving DecidableEq, Repr

/-- The frames CPL forms for a saw (R85). -/
inductive SawKind where
  | run | stage | go | unstage | stop
  deriving DecidableEq, Repr

/-- A frame of a station's frame list; `ticket` is the number it carries or, for a SAW STOP of a stop entry, the
ticket number of the order it stops (R87). -/
structure SawFrame where
  kind : SawKind
  ticket : Option Byte
  frame : Frame
  deriving DecidableEq, Repr

/-- The on-deck slot's contents: the order and the ticket number of its staged program (R78, R84). -/
structure OnDeck where
  order : OrderRec
  staged : Option Byte
  deriving DecidableEq, Repr

inductive StopReason where
  | aborted | overrun
  deriving DecidableEq, Repr

/-- The active slot's contents (R78, R91). -/
structure Active where
  order : OrderRec
  ticket : Byte
  waterUsed : Nat
  stop : Option StopReason
  pass : Nat
  run : Nat
  deriving DecidableEq, Repr

/-- What CPL keeps for a station (R78); the record hold is in port U's waiting line. -/
structure Pipeline where
  onDeck : Option OnDeck
  active : Option Active
  frames : List SawFrame
  ticketNo : Byte
  overrun : Timer
  stop : Timer
  deriving DecidableEq, Repr

/-- The pipeline constants (R89). -/
structure PipeConsts where
  percent : Nat
  grace : Nat
  stopTimeout : Nat
  deriving DecidableEq, Repr

/-! ### STK -/

/-- The order that has a record in hand (R100). -/
structure Holder where
  station : StationNo
  slot : SlotNo
  deriving DecidableEq, Repr

/-- The states of a used record; FREE is the absence of one (R100, R101). -/
inductive SlabState where
  | stock
  | reserved (h : Holder)
  | cutting (h : Holder)
  | doubtful
  deriving DecidableEq, Repr

/-- A used slab record (R100). -/
structure Slab where
  state : SlabState
  material : Material
  thick : Nat
  len : Nat
  wid : Nat
  gen : Nat
  parent : Option SlabNo
  basis : Nat
  yard : Nat
  deriving DecidableEq, Repr

structure Stk where
  slabs : Vector (Option Slab) 512
  reservations : Nat
  deriving DecidableEq, Repr

/-! ### LCK (R118) -/

structure Lck where
  low : Nat
  high : Nat
  invert : Bool
  hard : Bool
  disabled : Bool
  key : Level
  settle : Timer
  deriving DecidableEq, Repr

/-! ### WBU (R128, R131) -/

inductive Quality where
  | clear | upset
  deriving DecidableEq, Repr

inductive Freshness where
  | live | stale
  deriving DecidableEq, Repr

inductive Band where
  | low | makeup | normal
  deriving DecidableEq, Repr

inductive Valve where
  | opened | closed
  deriving DecidableEq, Repr

structure WaterConsts where
  capacity : Nat
  lowMark : Nat
  hysteresis : Nat
  makeupOn : Nat
  makeupOff : Nat
  turbidityLimit : Nat
  sampleTimeout : Nat
  dailyAllowance : Nat
  plantNode : Nat
  deriving DecidableEq, Repr

structure Wbu where
  consts : WaterConsts
  level : Nat
  turbidity : Nat
  quality : Quality
  freshness : Freshness
  sampleTimer : Timer
  band : Band
  valve : Valve
  allowance : Nat
  reserved : Nat
  waitList : Vector (Option Nat) 8
  pointer : StationNo
  deriving DecidableEq, Repr

/-! ### PSU (R151, R152, R154, R157, R159, R160) -/

inductive CostCtx where
  | production | rework | service
  deriving DecidableEq, Repr

structure Target where
  job : JobNo
  ctx : CostCtx
  deriving DecidableEq, Repr

structure Entry where
  target : Target
  charge : Bool
  water : Nat
  energy : Nat
  run : Nat
  material : Nat
  waste : Nat
  deriving DecidableEq, Repr

structure Posting where
  target : Target
  buffer : List Entry
  covered : Nat
  timer : Timer
  deriving DecidableEq, Repr

inductive FreezeState where
  | thawed | pending | frozen
  deriving DecidableEq, Repr

structure Psu where
  posts : Vector Posting 8
  freeze : FreezeState
  freezeTimer : Timer
  period : Nat
  limit : Nat
  deriving DecidableEq, Repr

/-! ### JAU (R166, R179) -/

inductive JobState where
  | free | opened | closing | closed
  deriving DecidableEq, Repr

/-- The five accumulators of one cost context. -/
structure Acc where
  material : Nat
  waste : Nat
  water : Nat
  run : Nat
  energy : Nat
  deriving DecidableEq, Repr

structure Job where
  state : JobState
  reference : Nat
  outstanding : Nat
  pending : Nat
  production : Acc
  rework : Acc
  service : Acc
  deriving DecidableEq, Repr

structure Jau where
  jobs : Vector Job 64
  waterRate : Nat
  runRate : Nat
  energyRate : Nat
  deriving DecidableEq, Repr

/-! ### NTU (R184, R185, R191, R192) -/

/-- The seventeen kinds, in the order of their codes (R185, R195). -/
inductive NoticeKind where
  | waterLow | waterUpset | waterStale | cutOverrun | sawFault | sawSilent | allowanceOut | freezeExpired
  | chainRefused | cutAborted | lateDone | slabDoubtful | postSaturated | postLost | foreignManage | panelClaimed
  | lineResetDone
  deriving DecidableEq, Repr

inductive Subject where
  | none
  | slab (n : SlabNo)
  | job (n : JobNo)
  | slot (n : SlotNo)
  deriving DecidableEq, Repr

structure Notice where
  kind : NoticeKind
  station : Option StationNo
  subject : Subject
  count : Nat
  lost : Bool
  deriving DecidableEq, Repr

/-- NTU; `entries` are in the order in which they joined (log 9, DEDUCED). -/
structure Ntu where
  entries : List Notice
  outstanding : Bool
  period : Nat
  timer : Timer
  number : Nat
  deriving DecidableEq, Repr

/-! ### The whole -/

/-- Everything the spec gives the part, and `picks`, the model's own: how many free picks have been made (log 6). -/
structure Part where
  inReset : Bool
  yardkey : Level
  portU : PortState
  portD : PortState
  mgu : Mgu
  map : Vector MapEntry 8
  stc : Vector StationCtx 8
  oqu : Vector Ring 8
  classes : Vector SawClass 4
  cpl : Vector Pipeline 8
  pipe : PipeConsts
  stk : Stk
  lck : Lck
  wbu : Wbu
  psu : Psu
  jau : Jau
  ntu : Ntu
  picks : Nat
  deriving DecidableEq, Repr

/-- The part and the commands that wait for it, first in, first out. -/
structure State where
  pending : List Instr
  part : Part
  deriving DecidableEq, Repr

/-- No event of the spec stops the part: the type of faults has no constructor. -/
inductive Fault
  deriving DecidableEq, Repr

inductive Refusal where
  /-- Raised by `exec`'s arm of a command that has no meaning yet (no arm has it). Safe: nothing runs. -/
  | notModelled (mnemonic : String)
  deriving DecidableEq, Repr

/-! ### Values at power-up -/

def PortState.initial : PortState := ⟨.settling, 0, [], [], false, []⟩

def MapEntry.unmapped : MapEntry := ⟨0, 0, false⟩

def HoldSet.empty : HoldSet := ⟨false, false, false⟩

def StationCtx.initial : StationCtx := ⟨.service, .cell, .empty, none⟩

def Ring.empty : Ring := ⟨Vector.replicate 16 none, 0, 0, [], 0⟩

def SawClass.initial : SawClass := ⟨4, 12, 40, Vector.replicate 8 20, 300, 150⟩

def Pipeline.empty : Pipeline := ⟨none, none, [], 0, .stopped, .stopped⟩

def Target.house : Target := ⟨0, .service⟩

def Posting.empty : Posting := ⟨.house, [], 0, .stopped⟩

def Acc.zero : Acc := ⟨0, 0, 0, 0, 0⟩

def Job.free : Job := ⟨.free, 0, 0, 0, .zero, .zero, .zero⟩

/-- Job 0 at power-up (R181). -/
def Job.house : Job := { Job.free with state := .opened }

def WaterConsts.initial : WaterConsts := ⟨0, 0, 0, 0, 0, 40, 5, 0, 0⟩

/-- The part right after power-up, with the levels of LOCKEN and YARDKEY as the power-on sequence completes
(R18, R20, R22, R40, R62, R78, R89, R115, R118, R128, R131, R159, R164, R181, R193). -/
def Part.powerUp (locken yardkey : Level) : Part where
  inReset := false
  yardkey := yardkey
  portU := .initial
  portD := .initial
  mgu := ⟨[], none, .powerUp⟩
  map := Vector.replicate 8 .unmapped
  stc := Vector.replicate 8 .initial
  oqu := Vector.replicate 8 .empty
  classes := Vector.replicate 4 .initial
  cpl := Vector.replicate 8 .empty
  pipe := ⟨200, 60, 10⟩
  stk := ⟨Vector.replicate 512 none, 0⟩
  lck := ⟨1, 0, false, false, decide (locken = .low), yardkey, .stopped⟩
  wbu := ⟨.initial, 0, 0, .clear, .stale, .stopped, .low, .closed, 0, 0, Vector.replicate 8 none, 7⟩
  psu := ⟨Vector.replicate 8 .empty, .thawed, .stopped, 20, 120⟩
  jau := ⟨(Vector.replicate 64 Job.free).set 0 Job.house, 0, 0, 0⟩
  ntu := ⟨[], false, 10, .running 1000, 0⟩
  picks := 0

/-- The part right after power-up with LOCKEN and YARDKEY high, as their pull-ups leave open pins (12.11,
log 3, DESIGN CHOICE), and no command waiting. -/
def State.reset : State := ⟨[], Part.powerUp .high .high⟩

end Sys2Proof.Machine
end

