-- ==== Sys2Proof/Machine/Flags.lean ====
section
/-! DEFINITION. The conditions and views the rules read off the state: mapped stations, hold sets, the cuttability test,
bands and the hold condition, available water, rings, frame lists, the waiting places of the blocks, the notice queue. -/

namespace Sys2Proof.Machine

/-! ### Stations (R20, R22) -/

/-- R20: a node address other than 0 and the enabled flag set. -/
def MapEntry.mapped (e : MapEntry) : Bool := decide (e.node ≠ 0) && e.enabled

/-- The station a node address is mapped to (R6, R20). -/
def stationOf (p : Part) (node : Byte) : Option StationNo :=
  allStations.find? fun st => p.map[st].mapped && decide (p.map[st].node = node.toNat)

def HoldSet.has (h : HoldSet) (r : Reason) : Bool :=
  match r with
  | .water => h.water
  | .panel => h.panel
  | .cell => h.cell

def HoldSet.put (h : HoldSet) (r : Reason) (b : Bool) : HoldSet :=
  match r with
  | .water => { h with water := b }
  | .panel => { h with panel := b }
  | .cell => { h with cell := b }

def HoldSet.isEmpty (h : HoldSet) : Bool := !h.water && !h.panel && !h.cell

/-- All eight stations in SERVICE (R17, R39). -/
def allInService (p : Part) : Bool := allStations.all fun st => decide (p.stc[st].state = .service)

/-! ### Stock locking (R119) -/

/-- R119: every number while disabled is set; otherwise exactly one of "in the range" and "invert set". -/
def cuttable (l : Lck) (n : Nat) : Bool :=
  l.disabled || ((decide (l.low ≤ n) && decide (n ≤ l.high)) != l.invert)

/-! ### Stock (R102, R106, R111) -/

def usedCount (k : Stk) : Nat := k.slabs.toList.countP fun r => r.isSome

def Slab.isHeld (r : Slab) : Bool :=
  match r.state with
  | .reserved _ => true
  | .cutting _ => true
  | .stock => false
  | .doubtful => false

def heldCount (k : Stk) : Nat := k.slabs.toList.countP fun r => r.any Slab.isHeld

def doubtfulCount (k : Stk) : Nat := k.slabs.toList.countP fun r => r.any fun x => decide (x.state = .doubtful)

/-- The lowest-numbered record for which `good` holds, from number `start` on. -/
def findSlab (k : Stk) (start : Nat) (good : Option Slab → Bool) : Option SlabNo :=
  (List.finRange 512).find? fun n => decide (start ≤ n.val) && good k.slabs[n]

/-! ### Water (R133, R136, R137, R143) -/

/-- R133's table. -/
def bandAfter (c : WaterConsts) (before : Band) (level : Nat) : Band :=
  let bottom := if before = .low then c.lowMark + c.hysteresis else c.lowMark
  if level < bottom then .low else if level < c.makeupOn then .makeup else .normal

/-- R132 step 3. -/
def qualityOf (c : WaterConsts) (turbidity : Nat) : Quality :=
  if c.turbidityLimit < turbidity then .upset else .clear

/-- R143: the band is LOW or quality is UPSET. -/
def holdCondition (w : Wbu) : Bool := decide (w.band = .low) || decide (w.quality = .upset)

/-- R136: the level less the low mark less the reserved total, 0 when negative. -/
def available (w : Wbu) : Nat := w.level - w.consts.lowMark - w.reserved

/-- The first three conditions of R137, which a grant scan needs too (R138). -/
def grantsOpen (w : Wbu) : Bool :=
  decide (w.freshness = .live) && decide (w.quality = .clear) && decide (w.band ≠ .low)

/-- R137. -/
def grantOk (w : Wbu) (need : Nat) : Bool := grantsOpen w && decide (need ≤ available w)

/-! ### Rings, chains and orders (R40, R41, R48) -/

def Ring.used (r : Ring) : Nat := (r.producer - r.consumer).val

/-- R40: the producer index is one behind the consumer index. -/
def Ring.isFull (r : Ring) : Bool := decide (r.producer + 1 = r.consumer)

def Ring.isEmpty (r : Ring) : Bool := decide (r.producer = r.consumer)

/-- The slots in use, oldest first. -/
def Ring.inUse (r : Ring) : List SlotNo :=
  (List.range r.used).map fun i => r.consumer + Fin.ofNat 16 i

/-- An order that has not closed. -/
def OrderRec.isOpen (o : OrderRec) : Bool :=
  match o.state with
  | .closed _ => false
  | .queued => true
  | .waiting => true
  | .admitted => true
  | .onDeck => true
  | .active => true

/-- A claimed order (section 3.5): WAITING, ADMITTED, ON-DECK or ACTIVE. -/
def OrderRec.isClaimed (o : OrderRec) : Bool :=
  match o.state with
  | .closed _ => false
  | .queued => false
  | .waiting => true
  | .admitted => true
  | .onDeck => true
  | .active => true

/-- The open orders of a ring, in ring order from the head. -/
def Ring.openOrders (r : Ring) : List OrderRec :=
  r.inUse.filterMap fun i => r.slots[i].filter OrderRec.isOpen

/-- The open members of a chain that are in the ring, in chain order. -/
def Ring.members (r : Ring) (id : Nat) : List OrderRec :=
  r.openOrders.filter fun o => decide (o.chain = id)

/-- The station's open chain (R47): its newest chain, while that is OPEN. -/
def Ring.openChain (r : Ring) : Option Chain := r.chains.getLast?.filter fun c => decide (c.state = .opened)

/-- R77: the piece equals its source. -/
def Ticket.takeWhole (t : Ticket) : Bool := !t.rip && !t.cross

/-- Whether an order's ticket is take-whole (R77). -/
def OrderRec.takeWhole (o : OrderRec) : Bool := o.ticket.any Ticket.takeWhole

/-- The source record of an order: the slab it names, or the remnant bound to it (R101, R113). -/
def OrderRec.sourceRecord (o : OrderRec) : Option SlabNo :=
  match o.order.source with
  | .slab n => some n
  | .followOn => o.bound

/-- The member after an order in its chain, if it is still open: on-deck or in the ring (R48, R96, R113). -/
def nextMember (p : Part) (st : StationNo) (o : OrderRec) : Option OrderRec :=
  let follows := fun (x : OrderRec) => decide (x.chain = o.chain) && decide (x.pos = o.pos + 1) && x.isOpen
  match p.cpl[st].onDeck with
  | some d => if follows d.order then some d.order else (p.oqu[st].openOrders.find? follows)
  | none => p.oqu[st].openOrders.find? follows

/-! ### Frame lists (R81, R85) -/

def SawFrame.isProgram (f : SawFrame) : Bool :=
  match f.kind with
  | .run => true
  | .go => true
  | .stage => false
  | .unstage => false
  | .stop => false

/-- A CUT RUN or CUT GO is on the station's frame list. -/
def programWaits (c : Pipeline) : Bool := c.frames.any SawFrame.isProgram

/-- A SAW STOP is on the station's frame list. -/
def stopWaits (c : Pipeline) : Bool := c.frames.any fun f => decide (f.kind = .stop)

/-! ### The waiting places of the blocks (R11) -/

/-- The port a waiter's frame leaves by (R5). -/
def Waiter.port (w : Waiter) : Port :=
  match w with
  | .saw _ => .D
  | .pause _ _ => .D
  | .panelAnswer _ _ => .D
  | .valve _ _ => .D
  | .commandAnswer _ => .U
  | .arrivalRefusal _ => .U
  | .spentSlot _ _ _ => .U
  | .onDeckPlace _ _ _ => .U
  | .recordHold _ _ _ => .U
  | .manageAnswer _ _ => .U
  | .busy _ => .U
  | .attention _ => .U
  | .summary _ => .U

/-- Two waiters of one list whose frames enter in the order formed (R35, R45, R94). -/
def Waiter.sameList (a b : Waiter) : Bool :=
  match a, b with
  | .commandAnswer _, .commandAnswer _ => true
  | .arrivalRefusal _, .arrivalRefusal _ => true
  | .recordHold s _ _, .recordHold t _ _ => decide (s = t)
  | _, _ => false

def Waiter.isCommandAnswer (w : Waiter) : Bool := match w with | .commandAnswer _ => true | _ => false
def Waiter.isArrivalRefusal (w : Waiter) : Bool := match w with | .arrivalRefusal _ => true | _ => false
def Waiter.isBusy (w : Waiter) : Bool := match w with | .busy _ => true | _ => false
def Waiter.isAttention (w : Waiter) : Bool := match w with | .attention _ => true | _ => false
def Waiter.isSummary (w : Waiter) : Bool := match w with | .summary _ => true | _ => false
def Waiter.isManageAnswer (w : Waiter) : Bool := match w with | .manageAnswer _ _ => true | _ => false
def Waiter.isFirstSegment (w : Waiter) : Bool := match w with | .manageAnswer (some _) _ => true | _ => false
def Waiter.isSawOf (st : StationNo) (w : Waiter) : Bool := match w with | .saw s => decide (s = st) | _ => false
def Waiter.isPauseOf (st : StationNo) (w : Waiter) : Bool := match w with | .pause s _ => decide (s = st) | _ => false
def Waiter.isPanelOf (st : StationNo) (w : Waiter) : Bool :=
  match w with | .panelAnswer s _ => decide (s = st) | _ => false
def Waiter.isValve (opens : Bool) (w : Waiter) : Bool := match w with | .valve o _ => o == opens | _ => false
def Waiter.isHoldOf (st : StationNo) (w : Waiter) : Bool :=
  match w with | .recordHold s _ _ => decide (s = st) | _ => false
def Waiter.isAnyHold (w : Waiter) : Bool := match w with | .recordHold _ _ _ => true | _ => false
def Waiter.isPlaceOf (st : StationNo) (w : Waiter) : Bool :=
  match w with | .onDeckPlace s _ _ => decide (s = st) | _ => false
def Waiter.isSpentOf (st : StationNo) (slot : SlotNo) (w : Waiter) : Bool :=
  match w with | .spentSlot s i _ => decide (s = st) && decide (i = slot) | _ => false

/-- How many frames wait in a place. -/
def PortState.waits (q : PortState) (what : Waiter → Bool) : Nat := q.waiting.countP fun w => what w.who

/-- A frame waits in a place. -/
def PortState.anyWaits (q : PortState) (what : Waiter → Bool) : Bool := q.waiting.any fun w => what w.who

/-- The record hold of a station is empty (R81). -/
def recordHoldEmpty (p : Part) (st : StationNo) : Bool := !p.portU.anyWaits (Waiter.isHoldOf st)

/-- A record waits in the station's on-deck record place (R59). -/
def placeOccupied (p : Part) (st : StationNo) : Bool := p.portU.anyWaits (Waiter.isPlaceOf st)

/-! ### Posting (R154, R160) -/

/-- A drain of some station's buffer is in flight. -/
def anyDrain (u : Psu) : Bool := allStations.any fun st => decide (0 < u.posts[st].covered)

/-! ### Notices (R184, R185) -/

def NoticeKind.urgent (k : NoticeKind) : Bool :=
  match k with
  | .waterLow => true
  | .waterUpset => true
  | .waterStale => true
  | .cutOverrun => true
  | .sawFault => true
  | .sawSilent => true
  | .allowanceOut => true
  | .freezeExpired => true
  | .chainRefused => false
  | .cutAborted => false
  | .lateDone => false
  | .slabDoubtful => false
  | .postSaturated => false
  | .postLost => false
  | .foreignManage => false
  | .panelClaimed => false
  | .lineResetDone => false

/-- The queue of R184: the URGENT entries, then the ROUTINE ones, each run in the order of joining. -/
def noticeQueue (u : Ntu) : List Notice :=
  (u.entries.filter fun n => n.kind.urgent) ++ (u.entries.filter fun n => !n.kind.urgent)

def urgentCount (u : Ntu) : Nat := u.entries.countP fun n => n.kind.urgent

/-- The condition that holds a level kind (R185, R143). -/
def levelHolds (w : Wbu) (k : NoticeKind) : Bool :=
  match k with
  | .waterLow => decide (w.band = .low)
  | .waterUpset => decide (w.quality = .upset)
  | .waterStale => decide (w.freshness = .stale)
  | _ => false

end Sys2Proof.Machine
end

