-- ==== Sys2Proof/Machine/Operands.lean ====
section
/-! DEFINITION. The values that orders and table writes carry: their structural checks and their clamping into range
(R15), and a CUT ORDER's field ranges, which are checked and never clamped (R43). -/

namespace Sys2Proof.Machine

/-! ### Clamping (R15 step 2) -/

/-- The nearer bound of a range. -/
def clamp (lo hi x : Nat) : Nat := if x < lo then lo else if hi < x then hi else x

/-- A value lies outside its range. -/
def outside (lo hi x : Nat) : Bool := decide (x < lo) || decide (hi < x)

/-- A flag of a request: 0 or 1 (R15 step 1). -/
def flagOf (b : Byte) : Option Bool :=
  match b.toNat with
  | 0 => some false
  | 1 => some true
  | _ => none

/-- A saw or plant node address: 0 or 2 to 62 (R21, R129). -/
def nodeOk (n : Nat) : Bool := decide (n = 0) || (decide (2 ≤ n) && decide (n ≤ 62))

/-! ### The CUT ORDER (R43, R197) -/

/-- 0xFFFF is FOLLOW-ON; 512 to 65534 names nothing (R195). -/
def sourceOf (s : Half) : Option Source :=
  if s.toNat = 65535 then some .followOn else (index 512 s.toNat).map .slab

def modeOf (b : Byte) : Option Mode :=
  match b.toNat with
  | 0 => some .production
  | 1 => some .rework
  | _ => none

/-- R43 check 2: the order a CUT ORDER's fields make, none when any field is out of range. -/
def orderOf (o : OrderFields) : Option Order := do
  let job ← index 64 o.job.toNat
  let source ← sourceOf o.source
  let mode ← modeOf o.mode
  let chain ← flagOf o.chain
  let now ← flagOf o.summaryNow
  if decide (job.val = 0) || outside 50 4000 o.len.toNat || outside 50 2200 o.wid.toNat then none
  else some ⟨job, source, o.len.toNat, o.wid.toNat, mode, chain, now, o.tag.toNat⟩

/-- The fields of an order as its record and frame carry them. -/
def sourceCode (s : Source) : Nat :=
  match s with
  | .slab n => n.val
  | .followOn => 65535

/-! ### Table writes -/

/-- The class entry written (R62, R63), and whether any field was clamped. -/
def classOf (f : ClassFields) : SawClass × Bool :=
  let feeds := [f.feed0, f.feed1, f.feed2, f.feed3, f.feed4, f.feed5, f.feed6, f.feed7].map BitVec.toNat
  let clampedFeed := fun i => clamp 1 200 (feeds.getD i 0)
  (⟨clamp 1 10 f.kerf.toNat, clamp 5 40 f.depth.toNat, clamp 1 2000 f.flow.toNat,
      #v[clampedFeed 0, clampedFeed 1, clampedFeed 2, clampedFeed 3,
         clampedFeed 4, clampedFeed 5, clampedFeed 6, clampedFeed 7],
      clamp 100 2000 f.lmin.toNat, clamp 50 1000 f.wmin.toNat⟩,
    outside 1 10 f.kerf.toNat || outside 5 40 f.depth.toNat || outside 1 2000 f.flow.toNat
      || feeds.any (outside 1 200) || outside 100 2000 f.lmin.toNat || outside 50 1000 f.wmin.toNat)

/-- The pipeline constants written (R89). -/
def pipeOf (percent grace : Half) (stop : Byte) : PipeConsts × Bool :=
  (⟨clamp 110 400 percent.toNat, clamp 0 600 grace.toNat, clamp 1 60 stop.toNat⟩,
    outside 110 400 percent.toNat || outside 0 600 grace.toNat || outside 1 60 stop.toNat)

/-- The water constants written (R128, R129 step 3); the plant node is checked apart and not clamped. -/
def waterOf (f : WaterFields) : WaterConsts × Bool :=
  (⟨clamp 0 4000000 f.capacity.toNat, clamp 0 4000000 f.lowMark.toNat, clamp 0 200000 f.hysteresis.toNat,
      clamp 0 4000000 f.makeupOn.toNat, clamp 0 4000000 f.makeupOff.toNat, clamp 1 1000 f.turbidityLimit.toNat,
      clamp 1 60 f.sampleTimeout.toNat, clamp 0 4000000 f.dailyAllowance.toNat, f.plantNode.toNat⟩,
    outside 0 4000000 f.capacity.toNat || outside 0 4000000 f.lowMark.toNat || outside 0 200000 f.hysteresis.toNat
      || outside 0 4000000 f.makeupOn.toNat || outside 0 4000000 f.makeupOff.toNat
      || outside 1 1000 f.turbidityLimit.toNat || outside 1 60 f.sampleTimeout.toNat
      || outside 0 4000000 f.dailyAllowance.toNat)

/-- R129 step 4, on the clamped values. -/
def marksOk (c : WaterConsts) : Bool :=
  decide (c.lowMark < c.makeupOn) && decide (c.makeupOn < c.makeupOff) && decide (c.makeupOff ≤ c.capacity)

/-- A parent as written: a record number, NONE, or neither (R105 step 1). -/
def parentOf (h : Half) : Option (Option SlabNo) :=
  if h.toNat = 65535 then some none else (index 512 h.toNat).map some

/-- The record that SLAB WRITE's fields make after clamping (R100, R105 step 3), and whether any was clamped. -/
def slabOf (f : SlabFields) (material : Material) (parent : Option SlabNo) : Slab × Bool :=
  (⟨.stock, material, clamp 10 80 f.thickness.toNat, clamp 100 4000 f.len.toNat, clamp 100 2200 f.wid.toNat,
      clamp 0 3 f.generation.toNat, parent, clamp 0 10000000 f.basis.toNat, f.yard.toNat⟩,
    outside 10 80 f.thickness.toNat || outside 100 4000 f.len.toNat || outside 100 2200 f.wid.toNat
      || outside 0 3 f.generation.toNat || outside 0 10000000 f.basis.toNat)

/-- R105 step 4: generation 0 has no parent, and no record is its own parent. -/
def slabCrossOk (n : SlabNo) (r : Slab) : Bool :=
  (decide (r.gen ≠ 0) || r.parent.isNone) && decide (r.parent ≠ some n)

/-- The posting constants written (R159). -/
def postingOf (period : Byte) (limit : Half) : (Nat × Nat) × Bool :=
  ((clamp 1 255 period.toNat, clamp 1 600 limit.toNat), outside 1 255 period.toNat || outside 1 600 limit.toNat)

/-- The rates written (R179). -/
def ratesOf (water run : Word) (energy : Half) : (Nat × Nat × Nat) × Bool :=
  ((clamp 0 100000 water.toNat, clamp 0 100000 run.toNat, clamp 0 10000 energy.toNat),
    outside 0 100000 water.toNat || outside 0 100000 run.toNat || outside 0 10000 energy.toNat)

end Sys2Proof.Machine
end

