-- ==== Sys2Proof/Machine/Formats.lean ====
section
/-! DEFINITION. The frames the part forms, byte by byte (R5, R195 to R205): frames for the saws and the plant, cut
records, ATTENTION and LINE SUMMARY, and the result fields of MANAGE ANSWER. -/

namespace Sys2Proof.Machine

/-! ### Codes (R195, R196) -/

def StationState.code (s : StationState) : Nat :=
  match s with
  | .service => 0
  | .idle => 1
  | .running => 2
  | .held => 3
  | .stopping => 4

def Slab.stateCode (r : Slab) : Nat :=
  match r.state with
  | .stock => 1
  | .reserved _ => 2
  | .cutting _ => 3
  | .doubtful => 4

def JobState.code (s : JobState) : Nat :=
  match s with
  | .free => 0
  | .opened => 1
  | .closing => 2
  | .closed => 3

def CostCtx.code (c : CostCtx) : Nat :=
  match c with
  | .production => 0
  | .rework => 1
  | .service => 2

def FreezeState.code (f : FreezeState) : Nat :=
  match f with
  | .thawed => 0
  | .pending => 1
  | .frozen => 2

def Band.code (b : Band) : Nat :=
  match b with
  | .low => 0
  | .makeup => 1
  | .normal => 2

def StartCause.code (c : StartCause) : Nat :=
  match c with
  | .powerUp => 0
  | .warm => 1

def CutOutcome.code (o : CutOutcome) : Nat :=
  match o with
  | .done => 0
  | .aborted => 1
  | .overrun => 2
  | .sawFault => 3
  | .noReply => 4
  | .lineReset => 5
  | .predecessorLost => 6
  | .cancelled => 7
  | .queueFull => 8
  | .badOrder => 9
  | .jobNotOpen => 10
  | .slabAbsent => 11
  | .slabBusy => 12
  | .slabLocked => 13
  | .slabTwice => 14
  | .noSource => 15
  | .pieceTooLarge => 16
  | .recordsFull => 17
  | .waterTooLarge => 18
  | .chainRefused => 19

def NoticeKind.code (k : NoticeKind) : Nat :=
  match k with
  | .waterLow => 1
  | .waterUpset => 2
  | .waterStale => 3
  | .cutOverrun => 4
  | .sawFault => 5
  | .sawSilent => 6
  | .allowanceOut => 7
  | .freezeExpired => 8
  | .chainRefused => 9
  | .cutAborted => 10
  | .lateDone => 11
  | .slabDoubtful => 12
  | .postSaturated => 13
  | .postLost => 14
  | .foreignManage => 15
  | .panelClaimed => 16
  | .lineResetDone => 17

/-- The statuses of MANAGE ANSWER and COMMAND ANSWER (section 1.5), in the order of their codes. -/
inductive Status where
  | done | clamped | busy | badValue | notFound | inUse | recordsFull | slabLocked | hardLocked | lockDisabled
  | notOwner | frozen | jobState
  deriving DecidableEq, Repr

def Status.code (s : Status) : Nat :=
  match s with
  | .done => 0
  | .clamped => 1
  | .busy => 2
  | .badValue => 3
  | .notFound => 4
  | .inUse => 5
  | .recordsFull => 6
  | .slabLocked => 7
  | .hardLocked => 8
  | .lockDisabled => 9
  | .notOwner => 10
  | .frozen => 11
  | .jobState => 12

def SawKind.code (k : SawKind) : Byte :=
  match k with
  | .run => 0x41
  | .stage => 0x42
  | .go => 0x43
  | .unstage => 0x44
  | .stop => 0x47

/-- 0 when stopped, else the remaining ms (R147, R159, R191). -/
def Timer.remaining (t : Timer) : Nat :=
  match t with
  | .stopped => 0
  | .running ms => ms
  | .paused ms => ms

/-! ### Frames the part originates (R5) -/

/-- A frame of the part: source node 1. -/
def originate (dst : Nat) (kind : Byte) (payload : List Byte) : Frame :=
  ⟨BitVec.ofNat 8 dst, BitVec.ofNat 8 Config.partNode, kind, payload⟩

/-- A frame for the node of a station's map entry, as the entry stands now (R5, R21). -/
def toSaw (p : Part) (st : StationNo) (kind : Byte) (payload : List Byte) : Frame :=
  originate p.map[st].node kind payload

/-- A frame for the cell computer. -/
def toCell (kind : Byte) (payload : List Byte) : Frame := originate Config.cellNode kind payload

/-- A MAKEUP OPEN or MAKEUP CLOSE for a plant node. -/
def toPlant (node : Nat) (opens : Bool) : Frame := originate node (if opens then 0x51 else 0x52) []

/-- The depth of pass `k` (from 1) in a program: 0 beyond the ticket's passes (R84, R198). -/
def passDepthOf (t : Ticket) (k : Nat) : Nat :=
  if k < t.passes then t.passDepth else if k = t.passes then t.lastDepth else 0

/-- The payload of CUT RUN and CUT STAGE (R198). -/
def programBytes (number : Byte) (t : Ticket) : List Byte :=
  number :: num16 t.ripLen ++ num16 t.ripOff ++ num16 t.crossLen ++ num16 t.crossOff ++ num8 t.passes ++ num8 t.feed
    ++ ((List.range 16).map fun i => BitVec.ofNat 8 (passDepthOf t (i + 1)))

/-- SAW PAUSE and SAW RESUME for a station. -/
def pauseFrame (p : Part) (st : StationNo) (resumes : Bool) : Frame :=
  toSaw p st (if resumes then 0x46 else 0x45) []

/-- PANEL ANSWER for a station. -/
def panelFrame (p : Part) (st : StationNo) (accepted : Bool) : Frame := toSaw p st 0x48 (numFlag accepted)

/-- COMMAND ANSWER (R197). -/
def commandFrame (st : StationNo) (code : Byte) (status : Status) : Frame :=
  toCell 0x86 (num8 st.val ++ [code] ++ num8 status.code)

/-- MANAGE ANSWER (R203). -/
def answerFrame (code tag : Byte) (status : Status) (results : List Byte) : Frame :=
  toCell 0x85 (code :: tag :: num8 status.code ++ results)

/-- The frame of a waiter: for a frame list, the frame at its front. -/
def waiterFrame (p : Part) (w : Waiter) : Option Frame :=
  match w with
  | .saw st => p.cpl[st].frames.head?.map fun f => f.frame
  | .pause _ f => some f
  | .panelAnswer _ f => some f
  | .valve _ f => some f
  | .commandAnswer f => some f
  | .arrivalRefusal f => some f
  | .spentSlot _ _ f => some f
  | .onDeckPlace _ _ f => some f
  | .recordHold _ _ f => some f
  | .manageAnswer _ f => some f
  | .busy f => some f
  | .attention f => some f
  | .summary f => some f

/-! ### Cut records (R97, R200) -/

/-- The fields of a cut record; a record with remnants takes the long form. -/
structure CutRecord where
  station : StationNo
  slot : Option SlotNo
  tag : Half
  job : Byte
  outcome : CutOutcome
  source : Half
  len : Half
  wid : Half
  passes : Nat
  tEst : Nat
  run : Nat
  water : Nat
  material : Nat
  waste : Nat
  kerf : Nat
  scrap : Nat
  remnants : List (SlabNo × Nat × Nat)
  deriving DecidableEq, Repr

/-- The 41 bytes both forms begin with, and the remnant list of the long form. -/
def recordBytes (r : CutRecord) : List Byte :=
  num8 r.station.val ++ num8 (match r.slot with | some i => i.val | none => 255) ++ put16 r.tag ++ [r.job]
    ++ num8 r.outcome.code ++ put16 r.source ++ put16 r.len ++ put16 r.wid ++ num8 r.passes ++ num32 r.tEst
    ++ num32 r.run ++ num32 r.water ++ num32 r.material ++ num32 r.waste ++ num32 r.kerf ++ num32 r.scrap
    ++ (match r.remnants with
        | [] => []
        | _ :: _ => num8 r.remnants.length
            ++ r.remnants.flatMap fun x => num16 x.1.val ++ num16 x.2.1 ++ num16 x.2.2)

def recordFrame (r : CutRecord) : Frame := toCell (if r.remnants.isEmpty then 0x81 else 0x82) (recordBytes r)

/-- The record OQU forms for an order it closes: the source as received, passes and time from the ticket when there is
one, all figures 0 (R57, R59, R97). -/
def closedRecord (st : StationNo) (o : OrderRec) (outcome : CutOutcome) : CutRecord where
  station := st
  slot := some o.slot
  tag := BitVec.ofNat 16 o.order.tag
  job := BitVec.ofNat 8 o.order.job.val
  outcome := outcome
  source := BitVec.ofNat 16 (sourceCode o.order.source)
  len := BitVec.ofNat 16 o.order.len
  wid := BitVec.ofNat 16 o.order.wid
  passes := match o.ticket with | some t => t.passes | none => 0
  tEst := match o.ticket with | some t => t.tEst | none => 0
  run := 0
  water := 0
  material := 0
  waste := 0
  kerf := 0
  scrap := 0
  remnants := []

/-- The source field of a record formed by CPL: the source record's number, or the FOLLOW-ON code when the source was
never created (R97). -/
def recordSource (o : OrderRec) : Half :=
  match o.sourceRecord with
  | some n => BitVec.ofNat 16 n.val
  | none => 0xFFFF

/-- The record CPL forms for an order that fails (R95 to R97). -/
def failedRecord (st : StationNo) (o : OrderRec) (outcome : CutOutcome) (run water : Nat) : CutRecord :=
  { closedRecord st o outcome with source := recordSource o, run := run, water := water }

/-- The record of an order refused at arrival: the fields as received, slot NONE (R45, R200). -/
def arrivalRecord (st : StationNo) (o : OrderFields) (outcome : CutOutcome) : CutRecord where
  station := st
  slot := none
  tag := o.tag
  job := o.job
  outcome := outcome
  source := o.source
  len := o.len
  wid := o.wid
  passes := 0
  tEst := 0
  run := 0
  water := 0
  material := 0
  waste := 0
  kerf := 0
  scrap := 0
  remnants := []

/-! ### Result fields of MANAGE ANSWER (R203, R205) -/

def identifyBytes (m : Mgu) : List Byte :=
  num16 Config.vendorCode ++ num16 Config.partCode ++ num8 Config.revision ++ num8 m.cause.code

def mapBytes (e : MapEntry) : List Byte := num8 e.node ++ num8 e.cls.val ++ numFlag e.enabled

def classBytes (c : SawClass) : List Byte :=
  num8 c.kerf ++ num8 c.depth ++ num16 c.flow ++ (c.feed.toList.map fun f => BitVec.ofNat 8 f) ++ num16 c.lmin
    ++ num16 c.wmin

def pipeBytes (c : PipeConsts) : List Byte := num16 c.percent ++ num16 c.grace ++ num8 c.stopTimeout

/-- The holder's station and ring slot, or NONE. -/
def holderBytes (s : SlabState) : List Byte :=
  match s with
  | .reserved h => num8 h.station.val ++ num8 h.slot.val
  | .cutting h => num8 h.station.val ++ num8 h.slot.val
  | .stock => [0xFF, 0xFF]
  | .doubtful => [0xFF, 0xFF]

def slabBytes (n : SlabNo) (r : Slab) : List Byte :=
  num16 n.val ++ num8 r.stateCode ++ num8 r.material.val ++ num8 r.thick ++ num16 r.len ++ num16 r.wid ++ num8 r.gen
    ++ num16 (match r.parent with | some q => q.val | none => 65535) ++ num32 r.basis ++ num16 r.yard
    ++ holderBytes r.state

def countBytes (k : Stk) : List Byte :=
  num16 (usedCount k) ++ num16 (heldCount k) ++ num16 (doubtfulCount k) ++ num16 (Config.slabPlaces - usedCount k)
    ++ num16 k.reservations

def lockBytes (l : Lck) : List Byte :=
  num16 l.low ++ num16 l.high ++ numFlag l.invert ++ numFlag l.hard ++ numFlag l.disabled
    ++ numFlag (decide (l.key = .high))

def waterConstBytes (c : WaterConsts) : List Byte :=
  num32 c.capacity ++ num32 c.lowMark ++ num32 c.hysteresis ++ num32 c.makeupOn ++ num32 c.makeupOff
    ++ num16 c.turbidityLimit ++ num8 c.sampleTimeout ++ num32 c.dailyAllowance ++ num8 c.plantNode

/-- A flag as a bit of a packed byte (R195). -/
def bitIf (b : Bool) (weight : Nat) : Nat := if b then weight else 0

/-- Offset 49 of the LINE SUMMARY. -/
def waterByte (w : Wbu) : Nat :=
  w.band.code + bitIf (decide (w.quality = .upset)) 4 + bitIf (decide (w.freshness = .live)) 8
    + bitIf (decide (w.valve = .opened)) 16

/-- Valve frame waiting: 0 none, 1 OPEN, 2 CLOSE (R131, R195). -/
def valveWaiting (p : Part) : Nat :=
  if p.portD.anyWaits (Waiter.isValve true) then 1 else if p.portD.anyWaits (Waiter.isValve false) then 2 else 0

/-- The wait list byte: bit s set when station s is on the list. -/
def waitListByte (w : Wbu) : Nat :=
  (allStations.map fun st => bitIf w.waitList[st].isSome (2 ^ st.val)).sum

def waterStateBytes (p : Part) : List Byte :=
  num32 p.wbu.level ++ num16 p.wbu.turbidity ++ num8 (waterByte p.wbu) ++ num8 (valveWaiting p)
    ++ num16 p.wbu.sampleTimer.remaining ++ num32 p.wbu.allowance ++ num32 p.wbu.reserved
    ++ num32 (available p.wbu) ++ num8 (waitListByte p.wbu) ++ num8 p.wbu.pointer.val

def postingBytes (u : Psu) : List Byte :=
  num8 u.period ++ num16 u.limit ++ num8 u.freeze.code ++ num32 u.freezeTimer.remaining
    ++ u.posts.toList.flatMap fun x =>
        num8 x.buffer.length ++ num8 x.covered ++ num8 x.target.job.val ++ num8 x.target.ctx.code

def jobBytes (j : Job) : List Byte := num8 j.state.code ++ num8 j.outstanding ++ num8 j.pending

def ratesBytes (j : Jau) : List Byte := num32 j.waterRate ++ num32 j.runRate ++ num16 j.energyRate

/-- R180: the total of one context, each term rounded half up, saturating. -/
def contextTotal (j : Jau) (a : Acc) : Nat :=
  min max32 (a.material + a.waste + roundHalfUp (a.water * j.waterRate) 100000
    + roundHalfUp (a.run * j.runRate) 3600000 + roundHalfUp (a.energy * j.energyRate) 1000)

def contextBytes (j : Jau) (a : Acc) : List Byte :=
  num32 a.material ++ num32 a.waste ++ num32 a.water ++ num32 a.run ++ num32 a.energy ++ num32 (contextTotal j a)

/-- JOB READ's two segments (R205). -/
def jobSegment1 (j : Jau) (r : Job) : List Byte :=
  1 :: num8 r.state.code ++ num32 r.reference ++ num8 r.outstanding ++ num8 r.pending ++ ratesBytes j
    ++ contextBytes j r.production

def jobSegment2 (j : Jau) (r : Job) : List Byte := 2 :: contextBytes j r.rework ++ contextBytes j r.service

/-- A notice's subject: its type and its number (R205). With the type NONE the number is 0, a value no rule states
(log 24, DESIGN CHOICE). -/
def subjectBytes (s : Subject) : List Byte :=
  match s with
  | .none => num8 0 ++ num16 0
  | .slab n => num8 1 ++ num16 n.val
  | .job n => num8 2 ++ num16 n.val
  | .slot n => num8 3 ++ num16 n.val

def noticeBytes (n : Notice) : List Byte :=
  num8 n.kind.code ++ num8 (bitIf n.kind.urgent 1 + bitIf n.lost 2)
    ++ num8 (match n.station with | some st => st.val | none => 255) ++ subjectBytes n.subject ++ num8 n.count

def summaryReadBytes (u : Ntu) : List Byte := num8 u.period ++ num16 u.timer.remaining ++ num8 u.number

/-! ### ATTENTION and LINE SUMMARY (R201, R202) -/

def attentionFrame (u : Ntu) : Frame := toCell 0x83 (num8 u.entries.length ++ num8 (urgentCount u))

/-- A station's four bytes in the LINE SUMMARY. -/
def stationBytes (p : Part) (st : StationNo) : List Byte :=
  let c := p.stc[st]
  let q := p.cpl[st]
  num8 c.state.code
    ++ num8 (bitIf (decide (c.owner = .panel)) 1 + bitIf c.holds.water 2 + bitIf c.holds.panel 4 + bitIf c.holds.cell 8
        + bitIf q.onDeck.isSome 16 + bitIf (q.onDeck.any fun d => d.staged.isSome) 32 + bitIf q.active.isSome 64)
    ++ num8 (p.oqu[st].producer.val * 16 + p.oqu[st].consumer.val)
    ++ num8 (match q.active with | some a => a.pass | none => 0)

def summaryFrame (p : Part) (number : Nat) : Frame :=
  toCell 0x84 (num8 number ++ (allStations.flatMap fun st => stationBytes p st)
    ++ num32 p.wbu.level ++ num32 p.wbu.reserved ++ num32 (available p.wbu) ++ num32 p.wbu.allowance
    ++ num8 (waterByte p.wbu)
    ++ num8 (bitIf (decide (p.psu.freeze = .frozen)) 1 + bitIf p.ntu.outstanding 2)
    ++ num16 p.portU.dropped ++ num16 p.portD.dropped ++ num8 p.ntu.entries.length)

end Sys2Proof.Machine
end

