-- ==== Sys2Proof/Machine/Ops.lean ====
section
/-! DEFINITION. The shared operations under every block: an event in progress and its follow-ups, updates of one
station's or one record's state, the output queues, the waiting places and what the entry of a frame sets off
(R4, R9 to R12, R41, R79, R85 to R87, R94, R145, R204), and the frame lists of CPL. -/

namespace Sys2Proof.Machine

/-! ### An event in progress -/

/-- The examinations that follow an event's own changes: of a station by CPL (R41, R79 to R83), of a station's claim
by OQU (R49), and the LINE SUMMARY that CPL asks for (R94). -/
inductive Task where
  | station (st : StationNo)
  | claim (st : StationNo)
  | summary
  deriving DecidableEq, Repr

/-- The part in the middle of an event, with the examinations still to be made, in the order they were asked for
(log 10, DEDUCED). -/
structure Ev where
  p : Part
  todo : List Task
  deriving DecidableEq, Repr

def Ev.map (e : Ev) (f : Part → Part) : Ev := { e with p := f e.p }

def Ev.later (e : Ev) (t : Task) : Ev := { e with todo := e.todo ++ [t] }

/-! ### Updates of one place -/

def Part.port (p : Part) (x : Port) : PortState :=
  match x with
  | .U => p.portU
  | .D => p.portD

def Part.upPort (p : Part) (x : Port) (f : PortState → PortState) : Part :=
  match x with
  | .U => { p with portU := f p.portU }
  | .D => { p with portD := f p.portD }

def Part.upMap (p : Part) (st : StationNo) (f : MapEntry → MapEntry) : Part := { p with map := upd p.map st f }

def Part.upStc (p : Part) (st : StationNo) (f : StationCtx → StationCtx) : Part := { p with stc := upd p.stc st f }

def Part.upRing (p : Part) (st : StationNo) (f : Ring → Ring) : Part := { p with oqu := upd p.oqu st f }

def Part.upCpl (p : Part) (st : StationNo) (f : Pipeline → Pipeline) : Part := { p with cpl := upd p.cpl st f }

def Part.upSlab (p : Part) (n : SlabNo) (f : Option Slab → Option Slab) : Part :=
  { p with stk := { p.stk with slabs := upd p.stk.slabs n f } }

def Part.upStk (p : Part) (f : Stk → Stk) : Part := { p with stk := f p.stk }

def Part.upLck (p : Part) (f : Lck → Lck) : Part := { p with lck := f p.lck }

def Part.upWbu (p : Part) (f : Wbu → Wbu) : Part := { p with wbu := f p.wbu }

def Part.upPsu (p : Part) (f : Psu → Psu) : Part := { p with psu := f p.psu }

def Part.upPost (p : Part) (st : StationNo) (f : Posting → Posting) : Part :=
  { p with psu := { p.psu with posts := upd p.psu.posts st f } }

def Part.upJob (p : Part) (n : JobNo) (f : Job → Job) : Part :=
  { p with jau := { p.jau with jobs := upd p.jau.jobs n f } }

def Part.upNtu (p : Part) (f : Ntu → Ntu) : Part := { p with ntu := f p.ntu }

def Part.upMgu (p : Part) (f : Mgu → Mgu) : Part := { p with mgu := f p.mgu }

/-- Update the record of an order in its ring slot. -/
def Ring.upOrder (r : Ring) (slot : SlotNo) (f : OrderRec → OrderRec) : Ring :=
  { r with slots := upd r.slots slot fun o => o.map f }

/-- A chain whose last open member has left the ring or closed leaves the chain list (R48). -/
def Ring.prune (r : Ring) : Ring := { r with chains := r.chains.filter fun c => !(r.members c.id).isEmpty }

/-! ### Timers -/

def Timer.pause (t : Timer) : Timer :=
  match t with
  | .running ms => .paused ms
  | .paused ms => .paused ms
  | .stopped => .stopped

def Timer.start (t : Timer) : Timer :=
  match t with
  | .running ms => .running ms
  | .paused ms => .running ms
  | .stopped => .stopped

def Timer.isRunning (t : Timer) : Bool :=
  match t with
  | .running _ => true
  | .paused _ => false
  | .stopped => false

/-- One millisecond of a running timer. -/
def Timer.tick (t : Timer) : Timer :=
  match t with
  | .running ms => .running (ms - 1)
  | .paused ms => .paused ms
  | .stopped => .stopped

/-- A running timer whose time has passed. -/
def Timer.isOut (t : Timer) : Bool := decide (t = .running 0)

/-! ### Drops, forwarding and entries (R4, R10, R11) -/

def otherPort (x : Port) : Port :=
  match x with
  | .U => .D
  | .D => .U

/-- R4: the count stops at 65535. -/
def countDrop (x : Port) (p : Part) : Part := p.upPort x fun q => { q with dropped := min 65535 (q.dropped + 1) }

/-- Fewer than 16 entries are in use (R11). -/
def hasRoom (q : PortState) : Bool := decide (q.queue.length < Config.queuePlaces)

/-- A frame enters an output queue. -/
def push (x : Port) (f : Frame) (p : Part) : Part := p.upPort x fun q => { q with queue := q.queue ++ [f] }

/-- A frame begins to wait in its block. -/
def join (w : Waiter) (p : Part) : Part := p.upPort w.port fun q => { q with waiting := q.waiting ++ [⟨w, none⟩] }

/-- R10: a frame received on port `x` is offered to the opposite port's queue. -/
def forward (x : Port) (f : Frame) (e : Ev) : Ev :=
  if (e.p.port (otherPort x)).queue.length < Config.forwardLimit then e.map (push (otherPort x) f)
  else e.map (countDrop (otherPort x))

/-- An originated frame whose entry sets nothing off enters or waits (R11). -/
def offerFrame (w : Waiter) (f : Frame) (e : Ev) : Ev :=
  if hasRoom (e.p.port w.port) then e.map (push w.port f) else e.map (join w)

/-! ### Waiting places -/

/-- Take waiting frames out of a port's waiting line unsent. -/
def discard (x : Port) (what : Waiter → Bool) (p : Part) : Part :=
  p.upPort x fun q => { q with waiting := q.waiting.filter fun w => !what w.who }

/-- Take the first frame of this kind out of a port's waiting line. -/
def takeWaiter (x : Port) (w : Waiter) (p : Part) : Part :=
  p.upPort x fun q => { q with waiting := q.waiting.eraseP fun y => decide (y.who = w) }

/-- Replace a waiting frame, keeping its place in line (R34, R192). -/
def replaceWaiter (x : Port) (what : Waiter → Bool) (f : Waiter → Waiter) (p : Part) : Part :=
  p.upPort x fun q =>
    { q with waiting := q.waiting.map fun y => if what y.who then { y with who := f y.who } else y }

/-! ### What an entry sets off -/

/-- R85, R86, R30: a CUT RUN or CUT GO has entered: the overrun timer starts if the station is RUNNING, and the pause
or resume held behind the program is offered. -/
def programEntered (st : StationNo) (e : Ev) : Ev :=
  let e1 := e.map fun p =>
    if p.stc[st].state = .running then p.upCpl st fun c => { c with overrun := c.overrun.start } else p
  match e1.p.stc[st].behind with
  | some f => offerFrame (.pause st f) f (e1.map fun p => p.upStc st fun c => { c with behind := none })
  | none => e1

/-- R87: a SAW STOP has entered: the stop timer starts if the order whose stop entry formed it is still active. -/
def stopEntered (st : StationNo) (f : SawFrame) (p : Part) : Part :=
  match p.cpl[st].active with
  | some a =>
    if a.stop.isSome ∧ f.ticket = some a.ticket then
      p.upCpl st fun c => { c with stop := .running (p.pipe.stopTimeout * 1000) }
    else p
  | none => p

/-- A frame of a station's frame list has entered port D's queue (R85). -/
def sawEntered (st : StationNo) (f : SawFrame) (e : Ev) : Ev :=
  match f.kind with
  | .run => programEntered st e
  | .go => programEntered st e
  | .stop => e.map (stopEntered st f)
  | .stage => e
  | .unstage => e

/-- R85: the frames of a station's list enter from the front while port D's queue has room; a front that finds none
begins to wait. -/
def pump (st : StationNo) (fuel : Nat) (e : Ev) : Ev :=
  match fuel with
  | 0 => e
  | n + 1 =>
    match e.p.cpl[st].frames with
    | [] => e
    | f :: rest =>
      if hasRoom e.p.portD then
        pump st n (sawEntered st f
          (e.map fun p => push .D f.frame (p.upCpl st fun c => { c with frames := rest })))
      else e.map (join (.saw st))

/-- Offer the front of a station's frame list. -/
def pumpAll (st : StationNo) (e : Ev) : Ev := pump st e.p.cpl[st].frames.length e

/-- R41: the record of a spent slot has entered. -/
def slotEntered (st : StationNo) (slot : SlotNo) (e : Ev) : Ev :=
  (e.map fun p => p.upRing st fun r => r.upOrder slot fun o => { o with entered := true }).later (.station st)

/-- R94: a record of the record hold has entered; at the last one CPL examines the station, and a summary-now order
asks for a LINE SUMMARY. -/
def holdEntered (st : StationNo) (now : Bool) (e : Ev) : Ev :=
  let e1 := if recordHoldEmpty e.p st then e.later (.station st) else e
  if now then e1.later .summary else e1

/-- R12: the request in progress has been answered. -/
def answered (p : Part) : Part := p.upMgu fun m => { m with inProgress := none }

/-- R12, R204: MGU's answer has entered: the request ceases to be in progress, or JOB READ's second segment is
offered. -/
def answerEntered (next : Option Frame) (e : Ev) : Ev :=
  match next with
  | none => e.map answered
  | some g =>
    if hasRoom e.p.portU then e.map fun p => answered (push .U g p) else e.map (join (.manageAnswer none g))

/-- A waiting or new frame enters its port's queue, with what its entry sets off. -/
def enter (w : Waiter) (e : Ev) : Ev :=
  match w with
  | .saw st => pumpAll st e
  | .pause _ f => e.map (push .D f)
  | .panelAnswer _ f => e.map (push .D f)
  | .valve opens f =>
    e.map fun p => (push .D f p).upWbu fun u => { u with valve := if opens then .opened else u.valve }
  | .commandAnswer f => e.map (push .U f)
  | .arrivalRefusal f => e.map (push .U f)
  | .spentSlot st slot f => slotEntered st slot (e.map (push .U f))
  | .onDeckPlace st _ f => (e.map (push .U f)).later (.station st)
  | .recordHold st now f => holdEntered st now (e.map (push .U f))
  | .manageAnswer next f => answerEntered next (e.map (push .U f))
  | .busy f => e.map (push .U f)
  | .attention f => e.map (push .U f)
  | .summary f => e.map (push .U f)

/-- R11: an originated frame enters when there is room and waits otherwise. -/
def offer (w : Waiter) (e : Ev) : Ev := if hasRoom (e.p.port w.port) then enter w e else e.map (join w)

/-! ### The waiting line at a freed entry (R11) -/

/-- The waiting frames that began to wait together first. -/
def firstGroup (ws : List Waiting) : List Waiter :=
  match ws with
  | [] => []
  | w :: _ => (ws.takeWhile fun x => decide (x.group = w.group)).map fun x => x.who

/-- Those of a group that no earlier frame of the same list stands before. -/
def eligible (seen ws : List Waiter) : List Waiter :=
  match ws with
  | [] => []
  | w :: rest =>
    if seen.any (Waiter.sameList w) then eligible (w :: seen) rest else w :: eligible (w :: seen) rest

/-- The waiting frames that can enter next. -/
def candidates (q : PortState) : List Waiter := eligible [] (firstGroup q.waiting)

/-- One waiting frame enters: the only candidate, or one that the free value picks (log 6, DESIGN CHOICE). -/
def admitOne (x : Port) (e : Ev) : Ev :=
  match candidates (e.p.port x) with
  | [] => e
  | [w] => enter w (e.map (takeWaiter x w))
  | w :: v :: ws =>
    let all := w :: v :: ws
    let chosen := all.getD (Config.freePick e.p.picks % all.length) w
    enter chosen (e.map fun p => takeWaiter x chosen { p with picks := p.picks + 1 })

/-- R9: the frame being sent leaves its entry. -/
def popSent (x : Port) (p : Part) : Part := p.upPort x fun q => { q with queue := q.queue.drop 1, sending := false }

/-- The number of the next group of a waiting line. -/
def nextGroup (ws : List Waiting) : Nat := (ws.foldl (fun m w => max m (w.group.getD 0)) 0) + 1

/-- At the end of an event, the frames that began to wait in it form one group. -/
def PortState.closeGroup (q : PortState) : PortState :=
  let g := nextGroup q.waiting
  { q with waiting := q.waiting.map fun w => { w with group := some (w.group.getD g) } }

def closeGroups (p : Part) : Part := { p with portU := p.portU.closeGroup, portD := p.portD.closeGroup }

/-! ### Frame lists (R85) -/

/-- CPL places a frame on a station's frame list; the front of the list is offered. The list has no bound: R85 says
that it never holds more than four frames, and the rules' own events can form a fifth (log 22, DESIGN CHOICE). -/
def placeSaw (st : StationNo) (kind : SawKind) (ticket : Option Byte) (payload : List Byte) (e : Ev) : Ev :=
  let wasEmpty := e.p.cpl[st].frames.isEmpty
  let frame := toSaw e.p st kind.code payload
  let e1 := e.map fun p => p.upCpl st fun c => { c with frames := c.frames ++ [⟨kind, ticket, frame⟩] }
  if wasEmpty then pumpAll st e1 else e1

/-- Frames leave a station's frame list unsent; a new front is offered in its turn: it begins to wait anew, at the back
of port D's waiting line (log 23, DESIGN CHOICE). -/
def dropSaw (st : StationNo) (what : SawFrame → Bool) (e : Ev) : Ev :=
  let frontGone := e.p.cpl[st].frames.head?.any what
  let e1 := e.map fun p => p.upCpl st fun c => { c with frames := c.frames.filter fun f => !what f }
  if frontGone then pumpAll st (e1.map (discard .D (Waiter.isSawOf st))) else e1

end Sys2Proof.Machine
end

