-- ==== Sys2Proof/Machine/Notices.lean ====
section
/-! DEFINITION. NTU: raising a notice (R186, R187), the attention handshake (R188, R189), NOTICE READ's removal (R190)
and the LINE SUMMARY (R192). -/

namespace Sys2Proof.Machine

def Notice.same (n : Notice) (kind : NoticeKind) (station : Option StationNo) : Bool :=
  decide (n.kind = kind) && decide (n.station = station)

/-- Set the lost mark of the entry that joined last (R187); `entries` are in the order of joining. -/
def markLost (entries : List Notice) : List Notice :=
  match entries with
  | [] => []
  | [n] => [{ n with lost := true }]
  | n :: m :: rest => n :: markLost (m :: rest)

/-- R186, R187: a notice is coalesced, joins, or is dropped with the lost mark set on the newest entry. -/
def joinNotice (u : Ntu) (kind : NoticeKind) (station : Option StationNo) (subject : Subject) : Ntu :=
  if u.entries.any fun n => n.same kind station then
    { u with entries := u.entries.map fun n =>
        if n.same kind station then { n with count := min 255 (n.count + 1), subject := subject } else n }
  else if u.entries.length < Config.noticePlaces then
    { u with entries := u.entries ++ [⟨kind, station, subject, 1, false⟩] }
  else { u with entries := markLost u.entries }

/-- R188: an ATTENTION is formed when the queue is not empty and outstanding is clear. -/
def testAttention (e : Ev) : Ev :=
  if e.p.ntu.outstanding || e.p.ntu.entries.isEmpty then e
  else offer (.attention (attentionFrame e.p.ntu)) (e.map fun p => p.upNtu fun u => { u with outstanding := true })

/-- A block raises a notice (R185, R186). -/
def raise (kind : NoticeKind) (station : Option StationNo) (subject : Subject) (e : Ev) : Ev :=
  testAttention (e.map fun p => p.upNtu fun u => joinNotice u kind station subject)

/-- R189 step 2: a level kind whose condition holds and which is not queued is raised again. -/
def reRaise (kind : NoticeKind) (p : Part) : Part :=
  if levelHolds p.wbu kind && !(p.ntu.entries.any fun n => n.same kind none) then
    p.upNtu fun u => joinNotice u kind none .none
  else p

/-- R189: ACK ATTENTION. -/
def ackAttention (e : Ev) : Ev :=
  testAttention (e.map fun p =>
    reRaise .waterStale (reRaise .waterUpset (reRaise .waterLow
      (discard .U Waiter.isAttention (p.upNtu fun u => { u with outstanding := false })))))

/-- R190: the entries that NOTICE READ returns, and the entries that stay. -/
def noticesRead (u : Ntu) : List Notice := (noticeQueue u).take 4

def dropRead (u : Ntu) : Ntu :=
  { u with entries := (noticesRead u).foldl (fun es n => es.erase n) u.entries }

/-- R192: a LINE SUMMARY is formed with the next summary number (log 12, DEDUCED), replaces a waiting one in its place, or is
offered. -/
def formSummary (e : Ev) : Ev :=
  let e1 := e.map fun p => p.upNtu fun u => { u with number := (u.number + 1) % 256 }
  let f := summaryFrame e1.p e1.p.ntu.number
  if e1.p.portU.anyWaits Waiter.isSummary then
    e1.map (replaceWaiter .U Waiter.isSummary fun _ => .summary f)
  else offer (.summary f) e1

/-- The summary timer at its period, unless the period is 0 (R191). -/
def summaryTimer (u : Ntu) : Timer := if u.period = 0 then .stopped else .running (u.period * 100)

/-- R191: the summary timer's expiry. -/
def summaryExpired (e : Ev) : Ev :=
  match e.p.ntu.timer with
  | .running _ => formSummary (e.map fun p => p.upNtu fun u => { u with timer := summaryTimer u })
  | .paused _ => e
  | .stopped => e

end Sys2Proof.Machine
end

