-- ==== Sys2Proof/Machine/Jobs.lean ====
section
/-! DEFINITION. JAU: the two counts of a job (R169 to R172) and the accumulators (R177, R178). -/

namespace Sys2Proof.Machine

/-- R172: a CLOSING job whose two counts are 0 becomes CLOSED. -/
def Job.settled (j : Job) : Job :=
  if j.state = .closing ∧ j.outstanding = 0 ∧ j.pending = 0 then { j with state := .closed } else j

/-- R170: a claimed order that names the job has closed. -/
def Job.lower (j : Job) : Job := Job.settled { j with outstanding := j.outstanding - 1 }

def Job.acc (j : Job) (c : CostCtx) : Acc :=
  match c with
  | .production => j.production
  | .rework => j.rework
  | .service => j.service

def Job.setAcc (j : Job) (c : CostCtx) (a : Acc) : Job :=
  match c with
  | .production => { j with production := a }
  | .rework => { j with rework := a }
  | .service => { j with service := a }

/-- A saturating sum of 32-bit figures. -/
def satAdd (a b : Nat) : Nat := min max32 (a + b)

/-- An addition that carries a figure to 2³² − 1 or beyond; adding 0 does not (R152, R178). -/
def saturates (a b : Nat) : Bool := decide (0 < b) && decide (max32 ≤ a + b)

/-- R177: an entry's figures added to the accumulators of a context. -/
def Acc.add (a : Acc) (x : Entry) : Acc :=
  ⟨satAdd a.material x.material, satAdd a.waste x.waste, satAdd a.water x.water, satAdd a.run x.run,
    satAdd a.energy x.energy⟩

/-- R178: some accumulator saturates at this addition. -/
def Acc.saturatedBy (a : Acc) (x : Entry) : Bool :=
  saturates a.material x.material || saturates a.waste x.waste || saturates a.water x.water || saturates a.run x.run
    || saturates a.energy x.energy

/-- R177, R171, R172: an application as the job sees it. -/
def Job.apply (j : Job) (x : Entry) : Job :=
  let j1 := j.setAcc x.target.ctx ((j.acc x.target.ctx).add x)
  Job.settled { j1 with pending := j1.pending - 1 }

/-- R177, R178: JAU applies an entry of a station's buffer. -/
def applyEntry (st : StationNo) (x : Entry) (e : Ev) : Ev :=
  let full := ((e.p.jau.jobs[x.target.job]).acc x.target.ctx).saturatedBy x
  let e1 := e.map fun p => p.upJob x.target.job fun j => j.apply x
  if full then raise .postSaturated (some st) (.job x.target.job) e1 else e1

/-- R170: the job of a claimed order that closes. -/
def lowerJob (n : JobNo) (p : Part) : Part := p.upJob n Job.lower

end Sys2Proof.Machine
end

