-- ==== Sys2Proof/Machine/Posting.lean ====
section
/-! DEFINITION. PSU: posting targets (R151), entries and merging (R152, R153), drains (R154, R155), flushes (R156), the
coalescing timer (R157), CHARGE entries (R158) and the audit freeze's own state (R160 to R163). -/

namespace Sys2Proof.Machine

/-- The cost context of a mode (R151). -/
def Mode.ctx (m : Mode) : CostCtx :=
  match m with
  | .production => .production
  | .rework => .rework

/-- The target of an order: its job and its mode's context (R151, R158). -/
def Order.target (o : Order) : Target := ⟨o.job, o.mode.ctx⟩

def setTarget (st : StationNo) (t : Target) (p : Part) : Part := p.upPost st fun x => { x with target := t }

/-- A drain of every entry present starts, or the one in flight is extended to them; it stops the coalescing timer
(R154). -/
def Posting.coverAll (x : Posting) : Posting :=
  if x.buffer.isEmpty then x else { x with covered := x.buffer.length, timer := .stopped }

/-- R154: the batch test, outside a freeze. -/
def Posting.batch (x : Posting) : Posting :=
  if x.covered = 0 ∧ 4 ≤ x.buffer.length then
    { x with covered := 4, timer := if x.buffer.length = 4 then .stopped else x.timer }
  else x

/-- R156: a flush, which has no effect while FROZEN. -/
def flushBuffer (st : StationNo) (p : Part) : Part :=
  if p.psu.freeze = .frozen then p else p.upPost st Posting.coverAll

/-- Flush every station's buffer (R162, R163, R165). -/
def flushAll (p : Part) : Part := allStations.foldl (fun q st => flushBuffer st q) p

/-- R154: the batch test at a station, outside a freeze. -/
def batchTest (st : StationNo) (p : Part) : Part :=
  if p.psu.freeze = .frozen then p else p.upPost st Posting.batch

/-- R152, R157, R171: an entry is formed behind the others, its job's pending-entry count rises, the coalescing timer
is restarted and a batch is tested for. -/
def formEntry (st : StationNo) (x : Entry) (p : Part) : Part :=
  let p1 := p.upPost st fun y =>
    { y with buffer := y.buffer ++ [x], timer := .running (p.psu.period * 100) }
  batchTest st (p1.upJob x.target.job fun j => { j with pending := j.pending + 1 })

/-- R155: the oldest entry leaves the buffer and is applied. -/
def applyFront (st : StationNo) (e : Ev) : Ev :=
  match e.p.psu.posts[st].buffer with
  | [] => e
  | x :: rest => applyEntry st x (e.map fun p => p.upPost st fun y => { y with buffer := rest })

/-- A drain of a station that a LINE RESET waits for has completed (R165). -/
def drainDone (st : StationNo) (p : Part) : Part :=
  p.upMgu fun m =>
    { m with inProgress := m.inProgress.map fun r =>
        match r.phase with
        | .resetting draining => { r with phase := .resetting (draining.filter fun x => decide (x ≠ st)) }
        | .answering => r
        | .freezing => r
        | .attending => r }

/-- One covered entry fewer; at the last the drain completes and a batch is tested for (R155). -/
def lowerCovered (st : StationNo) (p : Part) : Part :=
  let left := p.psu.posts[st].covered - 1
  let p1 := p.upPost st fun y => { y with covered := left }
  if left = 0 then batchTest st (drainDone st p1) else p1

/-- R155: one application of the drain in flight; none while FROZEN (R161). -/
def drainOnce (st : StationNo) (e : Ev) : Ev :=
  if e.p.psu.freeze = .frozen ∨ e.p.psu.posts[st].covered = 0 then e
  else (applyFront st e).map (lowerCovered st)

/-- R158: a CHARGE entry; a full buffer first has its oldest entry applied. -/
def chargeEntry (st : StationNo) (t : Target) (material waste : Nat) (e : Ev) : Ev :=
  let full := decide (Config.bufferPlaces ≤ e.p.psu.posts[st].buffer.length) && decide (e.p.psu.freeze ≠ .frozen)
  let draining := decide (0 < e.p.psu.posts[st].covered)
  let e1 := if full then (applyFront st e).map (if draining then lowerCovered st else id) else e
  e1.map (formEntry st ⟨t, true, 0, 0, 0, material, waste⟩)

/-- The newest USAGE entry with a target takes a sample's figures (R153); none when there is no such entry. The second
part says whether a field saturates. -/
def mergeNewest (t : Target) (w en r : Nat) (buffer : List Entry) : Option (List Entry × Bool) :=
  match buffer with
  | [] => none
  | x :: rest =>
    match mergeNewest t w en r rest with
    | some (rest', full) => some (x :: rest', full)
    | none =>
      if x.charge = false ∧ x.target = t then
        some ({ x with water := satAdd x.water w, energy := satAdd x.energy en, run := satAdd x.run r } :: rest,
          saturates x.water w || saturates x.energy en || saturates x.run r)
      else none

/-- R153: the sample is added to the newest USAGE entry with the same target. -/
def mergeSample (st : StationNo) (w en r : Nat) (e : Ev) : Option Ev :=
  let t := e.p.psu.posts[st].target
  match mergeNewest t w en r e.p.psu.posts[st].buffer with
  | some (buffer, full) =>
    let e1 := e.map fun p => p.upPost st fun y => { y with buffer := buffer }
    some (if full then raise .postSaturated (some st) (.job t.job) e1 else e1)
  | none => none

/-- R153: PSU takes a USAGE sample. -/
def postSample (st : StationNo) (w en r : Nat) (e : Ev) : Ev :=
  let x := e.p.psu.posts[st]
  let fresh := e.map (formEntry st ⟨x.target, false, w, en, r, 0, 0⟩)
  if Config.bufferPlaces ≤ x.buffer.length then
    match mergeSample st w en r e with
    | some e1 => e1
    | none => raise .postLost (some st) (.job x.target.job) e
  else if e.p.psu.freeze = .thawed then fresh
  else
    match mergeSample st w en r e with
    | some e1 => e1
    | none => fresh

/-- R157: the coalescing timer's expiry. -/
def coalesceExpired (st : StationNo) (p : Part) : Part :=
  match p.psu.posts[st].timer with
  | .running _ => flushBuffer st (p.upPost st fun y => { y with timer := .stopped })
  | .paused _ => p
  | .stopped => p

/-- R160: the freeze takes effect. -/
def freezeNow (p : Part) : Part :=
  p.upPsu fun u => { u with freeze := .frozen, freezeTimer := .running (u.limit * 1000) }

/-- The freeze state becomes THAWED and the freeze timer is stopped (R162, R163, R165). -/
def thaw (p : Part) : Part := p.upPsu fun u => { u with freeze := .thawed, freezeTimer := .stopped }

/-- R162, R163: the freeze ends: every buffer is flushed and every station examined for promotion. -/
def thawAndFlush (e : Ev) : Ev :=
  allStations.foldl (fun x st => x.later (.station st)) (e.map fun p => flushAll (thaw p))

/-- R163: the freeze timer's expiry. -/
def freezeExpired (e : Ev) : Ev :=
  match e.p.psu.freezeTimer with
  | .running _ =>
    if e.p.psu.freeze = .frozen then thawAndFlush (raise .freezeExpired none .none (e.map thaw)) else e
  | .paused _ => e
  | .stopped => e

end Sys2Proof.Machine
end

