-- ==== Sys2Proof/Machine/Tickets.lean ====
section
/-! DEFINITION. TKC: the cut ticket of one order (R65 to R73, R75, R77) and the basis split at completion (R74). -/

namespace Sys2Proof.Machine

/-- The stone a ticket cuts: the source inputs of R65. -/
structure Stone where
  len : Nat
  wid : Nat
  thick : Nat
  material : Material
  gen : Nat
  deriving DecidableEq, Repr

/-- The source inputs of a member that names a slab. -/
def Slab.stone (r : Slab) : Stone := ⟨r.len, r.wid, r.thick, r.material, r.gen⟩

/-- R72: whether a remnant with these sides, of a source of generation `gen`, is kept. -/
def keeps (c : SawClass) (gen a b : Nat) : Bool :=
  decide (c.lmin ≤ max a b) && decide (c.wmin ≤ min a b) && decide (100 ≤ min a b) && decide (gen + 1 ≤ 3)

/-- A remnant with its keep decision; absent when a side is 0 (R67, R68, R72). -/
def remnantOf (c : SawClass) (gen len wid : Nat) : Option Remnant :=
  if len = 0 ∨ wid = 0 then none else some ⟨len, wid, keeps c gen len wid⟩

def Remnant.longer (r : Remnant) : Nat := max r.len r.wid
def Remnant.shorter (r : Remnant) : Nat := min r.len r.wid
def Remnant.area (r : Remnant) : Nat := r.len * r.wid

/-- The present remnants among A and B, in that order. -/
def remnantList (a b : Option Remnant) : List Remnant := a.toList ++ b.toList

/-- The kept remnants, A first. -/
def keptList (a b : Option Remnant) : List Remnant := (remnantList a b).filter fun r => r.kept

/-- The sum of the areas of remnants. -/
def areaSum (rs : List Remnant) : Nat := (rs.map Remnant.area).sum

/-- R66 to R73: the ticket for a piece `l` × `w` from a source; none when the piece does not fit. -/
def ticketOf (c : SawClass) (source : Source) (s : Stone) (l w : Nat) : Option Ticket :=
  if s.len < l ∨ s.wid < w then none
  else
    let rip := decide (w < s.wid)
    let cross := decide (l < s.len)
    let kr := min c.kerf (s.wid - w)
    let kc := min c.kerf (s.len - l)
    let remA := remnantOf c s.gen s.len (s.wid - w - kr)
    let remB := remnantOf c s.gen (s.len - l - kc) w
    let ripLen := if rip then s.len else 0
    let crossLen := if cross then w else 0
    let cutLen := ripLen + crossLen
    let n := ceilDiv s.thick c.depth
    let d := ceilDiv s.thick n
    let feed := c.feed[s.material]
    let time := ceilDiv (cutLen * n * 1000) feed
    some {
      source := source, len := s.len, wid := s.wid, thick := s.thick, material := s.material, gen := s.gen,
      kerf := c.kerf, maxDepth := c.depth, flow := c.flow, feed := feed, lmin := c.lmin, wmin := c.wmin,
      rip := rip, ripKerf := kr, remA := remA, cross := cross, crossKerf := kc, remB := remB,
      ripLen := ripLen, ripOff := if rip then w else 0, crossLen := crossLen, crossOff := if cross then l else 0,
      cutLen := cutLen, passes := n, passDepth := d, lastDepth := s.thick - (n - 1) * d,
      tEst := time, water := ceilDiv (c.flow * time) 1000,
      areaSource := s.len * s.wid, areaPiece := l * w, areaKerf := s.len * kr + w * kc,
      areaKept := areaSum (keptList remA remB),
      areaScrap := areaSum ((remnantList remA remB).filter fun r => !r.kept),
      planned := (keptList remA remB).length }

/-- The kept remnants of a ticket, A first. -/
def Ticket.kept (t : Ticket) : List Remnant := keptList t.remA t.remB

/-- R75: the stone of the remnant A that a ticket plans, when A is kept. -/
def Ticket.planA (t : Ticket) : Option Stone :=
  match t.remA with
  | some a => if a.kept then some ⟨a.longer, a.shorter, t.thick, t.material, t.gen + 1⟩ else none
  | none => none

/-- The figures of a basis split (R74). -/
structure Split where
  material : Nat
  bases : List Nat
  waste : Nat
  deriving DecidableEq, Repr

/-- R74: the split of a basis by a ticket's areas; `bases` follows the kept remnants, A first. -/
def splitOf (t : Ticket) (basis : Nat) : Split :=
  let material := basis * t.areaPiece / t.areaSource
  let bases := t.kept.map fun r => basis * r.area / t.areaSource
  ⟨material, bases, basis - material - bases.sum⟩

end Sys2Proof.Machine
end

