-- ==== Sys2Proof/Machine/Stock.lean ====
section
/-! DEFINITION. STK: reservation, cutting and release of records (R103, R104), the reservation count (R102), the
creation of remnants (R112, R113) and SLAB WRITE's conditions (R105, R106). -/

namespace Sys2Proof.Machine

/-- A record of STOCK, RESERVED with this holder (R103). -/
def reserveSlab (n : SlabNo) (h : Holder) (p : Part) : Part :=
  p.upSlab n fun r => r.map fun x => { x with state := .reserved h }

/-- R103: a record RESERVED with this holder returns to STOCK. -/
def releaseSlab (h : Holder) (r : Option Slab) : Option Slab :=
  r.map fun x => if x.state = .reserved h then { x with state := .stock } else x

/-- R104: a RESERVED record passes to CUTTING, keeping its holder. -/
def cutSlab (r : Option Slab) : Option Slab :=
  r.map fun x =>
    match x.state with
    | .reserved h => { x with state := .cutting h }
    | .stock => x
    | .cutting _ => x
    | .doubtful => x

/-- R104: the record of a failed order is DOUBTFUL. -/
def doubtSlab (r : Option Slab) : Option Slab :=
  r.map fun x =>
    match x.state with
    | .cutting _ => { x with state := .doubtful }
    | .stock => x
    | .reserved _ => x
    | .doubtful => x

/-- The reservation count falls by an order's planned kept remnants (R102). -/
def returnRecords (n : Nat) (p : Part) : Part := p.upStk fun k => { k with reservations := k.reservations - n }

/-- R112: the record of a kept remnant. -/
def remnantRecord (source : Slab) (n : SlabNo) (gen : Nat) (r : Remnant) (basis : Nat) (state : SlabState) : Slab :=
  ⟨state, source.material, source.thick, r.longer, r.shorter, gen + 1, some n, basis, source.yard⟩

/-- R112 step 1: a record in the lowest FREE place, and its number. -/
def storeLowest (r : Slab) (k : Stk) : Stk × Option SlabNo :=
  match findSlab k 0 Option.isNone with
  | none => (k, none)
  | some m => ({ k with slabs := upd k.slabs m fun _ => some r }, some m)

/-- R112 step 1: the kept remnants, each in the lowest FREE record, the first with the holder of a bound remnant A;
answers the numbers with their sides. -/
def createRemnants (source : Slab) (n : SlabNo) (gen : Nat) (rs : List (Remnant × Nat × SlabState)) (k : Stk) :
    Stk × List (SlabNo × Nat × Nat) :=
  match rs with
  | [] => (k, [])
  | (r, basis, state) :: rest =>
    let stored := storeLowest (remnantRecord source n gen r basis state) k
    let after := createRemnants source n gen rest stored.1
    (after.1, (stored.2.toList.map fun m => (m, r.longer, r.shorter)) ++ after.2)

/-- R106: the owner's conditions of SLAB WRITE: the status of a refusal, none when the write may go on. -/
def slabWriteRefused (k : Stk) (l : Lck) (n : SlabNo) (createOnly : Bool) : Option Status :=
  match k.slabs[n] with
  | none => if usedCount k + k.reservations < Config.slabPlaces then none else some .recordsFull
  | some r =>
    if r.isHeld then some .inUse
    else if createOnly then some .inUse
    else if cuttable l n.val then none
    else some .slabLocked

/-- R116: a record at a warm reset. -/
def Slab.afterWarmReset (r : Slab) : Slab :=
  match r.state with
  | .stock => r
  | .reserved _ => { r with state := .stock }
  | .cutting _ => { r with state := .doubtful }
  | .doubtful => r

end Sys2Proof.Machine
end

