-- ==== Sys2Proof/Machine/Stations.lean ====
section
/-! DEFINITION. STC: hold sets (R28, R29), the SAW PAUSE and SAW RESUME (R30), the panel (R31 to R34), the answers of
station commands (R35), and CPL's stop entry and unstaging that they ask for (R80, R87). -/

namespace Sys2Proof.Machine

/-! ### Frames to the saw (R84, R85) -/

/-- The next ticket number of a station (R84). -/
def nextTicket (c : Pipeline) : Byte := c.ticketNo + 1

/-- R80: the staging of the on-deck order is undone: a CUT STAGE still on the frame list is removed, else a CUT UNSTAGE
with its number is placed. -/
def unstage (st : StationNo) (number : Byte) (e : Ev) : Ev :=
  let isStage := fun (f : SawFrame) => decide (f.kind = .stage) && decide (f.ticket = some number)
  if e.p.cpl[st].frames.any isStage then dropSaw st isStage e
  else placeSaw st .unstage (some number) [number] e

/-- Undo the staging of the station's on-deck order when it is staged. -/
def unstageOnDeck (st : StationNo) (e : Ev) : Ev :=
  match e.p.cpl[st].onDeck with
  | some d =>
    match d.staged with
    | some number =>
      unstage st number (e.map fun p => p.upCpl st fun c => { c with onDeck := some { d with staged := none } })
    | none => e
  | none => e

/-! ### Pause and resume (R28 to R30) -/

/-- A SAW PAUSE or SAW RESUME is held by STC for the station. -/
def pauseHeld (p : Part) (st : StationNo) : Bool :=
  p.stc[st].behind.isSome || p.portD.anyWaits (Waiter.isPauseOf st)

/-- The held SAW PAUSE or SAW RESUME of a station is discarded. -/
def discardPause (st : StationNo) (p : Part) : Part :=
  discard .D (Waiter.isPauseOf st) (p.upStc st fun c => { c with behind := none })

/-- R30: a SAW PAUSE or SAW RESUME is formed. Pauses and resumes alternate, so one that is held is of the opposite kind
and the two cancel; else it is offered, or held behind a program frame that waits. -/
def formPause (st : StationNo) (resumes : Bool) (e : Ev) : Ev :=
  if pauseHeld e.p st then e.map (discardPause st)
  else if programWaits e.p.cpl[st] then
    e.map fun p => p.upStc st fun c => { c with behind := some (pauseFrame p st resumes) }
  else
    let f := pauseFrame e.p st resumes
    offerFrame (.pause st f) f e

/-- R28: a reason is added to a hold set. -/
def addHold (st : StationNo) (r : Reason) (e : Ev) : Ev :=
  if e.p.stc[st].holds.has r then e
  else
    let running := e.p.stc[st].state = .running
    let e1 := e.map fun p => p.upStc st fun c => { c with holds := c.holds.put r true }
    if running then
      formPause st false (e1.map fun p =>
        (p.upStc st fun c => { c with state := .held }).upCpl st fun c => { c with overrun := c.overrun.pause })
    else e1

/-- R29: a reason is removed from a hold set. The overrun timer goes on only once the program frame has entered
(R86). -/
def removeHold (st : StationNo) (r : Reason) (e : Ev) : Ev :=
  if !e.p.stc[st].holds.has r then e
  else
    let e1 := e.map fun p => p.upStc st fun c => { c with holds := c.holds.put r false }
    if !e1.p.stc[st].holds.isEmpty then e1
    else if e1.p.stc[st].state = .held then
      formPause st true (e1.map fun p =>
        (p.upStc st fun c => { c with state := .running }).upCpl st fun c =>
          if programWaits c then c else { c with overrun := c.overrun.start })
    else if e1.p.stc[st].state = .idle then e1.later (.station st)
    else e1

/-! ### Stop entry (R26, R87) -/

/-- R87: a stop entry for the active order of a RUNNING or HELD station. -/
def stopEntry (st : StationNo) (a : Active) (why : StopReason) (e : Ev) : Ev :=
  placeSaw st .stop (some a.ticket) []
    (e.map fun p =>
      discardPause st ((p.upCpl st fun c =>
        { c with active := some { a with stop := some why }, overrun := .stopped }).upStc st fun c =>
          { c with state := .stopping }))

/-! ### The panel (R31 to R34) -/

/-- R34: a PANEL ANSWER is offered, or replaces the result of one that still waits. The waiting frame keeps its
destination, also when a MAP WRITE has changed the station's node since it was formed (R21; log 21, DEDUCED). -/
def panelAnswer (st : StationNo) (accepted : Bool) (e : Ev) : Ev :=
  let f := panelFrame e.p st accepted
  if e.p.portD.anyWaits (Waiter.isPanelOf st) then
    e.map (replaceWaiter .D (Waiter.isPanelOf st) fun w =>
      match w with
      | .panelAnswer s g => .panelAnswer s { g with payload := f.payload }
      | other => other)
  else offer (.panelAnswer st f) e

/-- R31. -/
def panelClaimed (st : StationNo) (e : Ev) : Ev :=
  let c := e.p.stc[st]
  if c.state = .service ∨ c.state = .idle then
    if c.owner = .cell then
      raise .panelClaimed (some st) .none
        (panelAnswer st true (unstageOnDeck st (e.map fun p => p.upStc st fun x => { x with owner := .panel })))
    else panelAnswer st true e
  else panelAnswer st false e

/-- R32. -/
def panelReleased (st : StationNo) (e : Ev) : Ev :=
  if e.p.stc[st].owner = .panel then
    ((e.map fun p => p.upStc st fun x => { x with owner := .cell }).later (.claim st)).later (.station st)
  else e

/-! ### Station commands (R35 to R38) -/

/-- R35: a station command is carried out and answered, unless 8 answers wait already. -/
def commanded (st : StationNo) (code : Byte) (act : Ev → Ev) (status : Part → Status) (e : Ev) : Ev :=
  if Config.waitingPlaces ≤ e.p.portU.waits Waiter.isCommandAnswer then e
  else offer (.commandAnswer (commandFrame st code (status e.p))) (act e)

/-- The status of HOLD and RESUME (R36, R37). -/
def ownerStatus (st : StationNo) (p : Part) : Status := if p.stc[st].owner = .cell then .done else .notOwner

/-- R36. -/
def holdCommand (st : StationNo) (e : Ev) : Ev := if e.p.stc[st].owner = .cell then addHold st .cell e else e

/-- R37. -/
def resumeCommand (st : StationNo) (e : Ev) : Ev := if e.p.stc[st].owner = .cell then removeHold st .cell e else e

/-- R38: a stop entry in RUNNING or HELD, nothing otherwise. -/
def abortCommand (st : StationNo) (e : Ev) : Ev :=
  if e.p.stc[st].state = .running ∨ e.p.stc[st].state = .held then
    match e.p.cpl[st].active with
    | some a => stopEntry st a .aborted e
    | none => e
  else e

/-- R86: the overrun timer's expiry. -/
def overrunExpired (st : StationNo) (e : Ev) : Ev :=
  match e.p.cpl[st].overrun, e.p.cpl[st].active with
  | .running _, some a => raise .cutOverrun (some st) (.slot a.order.slot) (stopEntry st a .overrun e)
  | _, _ => e

end Sys2Proof.Machine
end

