-- ==== Sys2Proof/Machine/Water.lean ====
section
/-! DEFINITION. WBU: grants and the grant scan (R136 to R140, R142), the debit (R141), the hold rule (R143), the valve
rule (R144, R145), the sample (R132), its timeout (R135), WATER WRITE's effects (R129) and NEW DAY (R146). -/

namespace Sys2Proof.Machine

/-! ### Grants (R55, R56, R137 to R139) -/

/-- R139: a member's remaining reservation is its V, and it is ADMITTED. -/
def OrderRec.admitted (o : OrderRec) : OrderRec :=
  { o with state := .admitted, remaining := match o.ticket with | some t => t.water | none => 0 }

/-- The station's WAITING chain. -/
def Ring.waitingChain (r : Ring) : Option Chain := r.chains.find? fun c => decide (c.state = .waiting)

def setChainState (id : Nat) (state : ChainState) (r : Ring) : Ring :=
  { r with chains := r.chains.map fun c => if c.id = id then { c with state := state } else c }

/-- Apply one change to every open member of a chain. -/
def Ring.upMembers (r : Ring) (id : Nat) (f : OrderRec → OrderRec) : Ring :=
  (r.members id).foldl (fun q o => q.upOrder o.slot f) r

/-- The V figures of a chain's open members, summed (R139). -/
def membersWater (r : Ring) (id : Nat) : Nat :=
  ((r.members id).map fun o => match o.ticket with | some t => t.water | none => 0).sum

/-- R139, R56: the station's WAITING chain is admitted, the station leaves the wait list, the pointer is set to it, and
CPL and OQU examine the station. -/
def grant (st : StationNo) (e : Ev) : Ev :=
  let e1 := e.map fun p =>
    p.upWbu fun u => { u with waitList := upd u.waitList st fun _ => none, pointer := st }
  match e.p.oqu[st].waitingChain with
  | some c =>
    let need := membersWater e.p.oqu[st] c.id
    ((e1.map fun p =>
      (p.upRing st fun r => setChainState c.id .admitted (r.upMembers c.id OrderRec.admitted)).upWbu fun u =>
        { u with reserved := u.reserved + need }).later (.station st)).later (.claim st)
  | none => e1

/-- R137: OQU asks for a chain's need. -/
def requestWater (st : StationNo) (need : Nat) (e : Ev) : Ev :=
  if grantOk e.p.wbu need then grant st e
  else e.map fun p => p.upWbu fun u => { u with waitList := upd u.waitList st fun _ => some need }

/-- The stations in the order a scan looks at them: from the one after the pointer (R138). -/
def scanOrder (pointer : StationNo) : List StationNo := (List.range 8).map fun i => pointer + 1 + Fin.ofNat 8 i

/-- R138 at one station. -/
def scanOne (e : Ev) (st : StationNo) : Ev :=
  match e.p.wbu.waitList[st] with
  | some need => if grantOk e.p.wbu need then grant st e else e
  | none => e

/-- R138: a grant scan. -/
def grantScan (e : Ev) : Ev := (scanOrder e.p.wbu.pointer).foldl scanOne e

/-- R142: a closing order's remaining reservation is released, and a grant scan follows, but not in a LINE RESET
(R150). -/
def releaseWater (remaining : Nat) (inLineReset : Bool) (e : Ev) : Ev :=
  let e1 := e.map fun p => p.upWbu fun u => { u with reserved := u.reserved - remaining }
  if inLineReset then e1 else grantScan e1

/-- R141: a sample's water is debited against the active order's remaining reservation. -/
def debit (st : StationNo) (w : Nat) (p : Part) : Part :=
  match p.cpl[st].active with
  | some a =>
    let amount := min w a.order.remaining
    (p.upCpl st fun c =>
      { c with active := some { a with order := { a.order with remaining := a.order.remaining - amount } } }).upWbu
        fun u => { u with reserved := u.reserved - amount }
  | none => p

/-! ### The hold rule (R143) -/

/-- The stations with an active order. -/
def activeStations (p : Part) : List StationNo := allStations.filter fun st => p.cpl[st].active.isSome

/-- R143, with the state before the event's changes of band and quality. -/
def holdRule (before : Wbu) (e : Ev) : Ev :=
  if holdCondition e.p.wbu then
    let e1 := (activeStations e.p).foldl (fun x st => addHold st .water x) e
    let e2 := if before.band ≠ .low ∧ e.p.wbu.band = .low then raise .waterLow none .none e1 else e1
    if before.quality = .clear ∧ e.p.wbu.quality = .upset then raise .waterUpset none .none e2 else e2
  else allStations.foldl (fun x st => removeHold st .water x) e

/-! ### The valve rule (R144, R145) -/

def opensValve (p : Part) : Bool :=
  decide (p.wbu.band ≠ .normal) && decide (p.wbu.freshness = .live) && decide (0 < p.wbu.allowance)
    && decide (p.wbu.valve = .closed) && !p.portD.anyWaits (Waiter.isValve true)

def closesValve (p : Part) : Bool :=
  (decide (p.wbu.valve = .opened) || p.portD.anyWaits (Waiter.isValve true))
    && (decide (p.wbu.consts.makeupOff ≤ p.wbu.level) || decide (p.wbu.allowance = 0)
        || decide (p.wbu.freshness = .stale))

def setValve (v : Valve) (p : Part) : Part := p.upWbu fun u => { u with valve := v }

/-- R144, R145; `node` is the plant node a MAKEUP CLOSE goes to (R129 step 3). -/
def valveRule (node : Nat) (e : Ev) : Ev :=
  if opensValve e.p then
    if e.p.portD.anyWaits (Waiter.isValve false) then
      e.map fun p => setValve .opened (discard .D (Waiter.isValve false) p)
    else offer (.valve true (toPlant e.p.wbu.consts.plantNode true)) e
  else if closesValve e.p then
    if e.p.portD.anyWaits (Waiter.isValve true) then e.map (discard .D (Waiter.isValve true))
    else offer (.valve false (toPlant node false)) (e.map (setValve .closed))
  else e

/-! ### Samples, allowance and the table -/

/-- R134, R146: the allowance left takes a new figure; passing from above 0 to 0 raises ALLOWANCE_OUT. -/
def setAllowance (n : Nat) (e : Ev) : Ev :=
  let e1 := e.map fun p => p.upWbu fun u => { u with allowance := n }
  if 0 < e.p.wbu.allowance ∧ n = 0 then raise .allowanceOut none .none e1 else e1

/-- R132 steps 1 to 4. -/
def sampled (level turbidity : Nat) (u : Wbu) : Wbu :=
  let lv := min level u.consts.capacity
  let tb := min turbidity 1000
  { u with level := lv, turbidity := tb, freshness := .live, sampleTimer := .running (u.consts.sampleTimeout * 1000),
           quality := qualityOf u.consts tb, band := bandAfter u.consts u.band lv }

/-- R132. -/
def takeSample (level turbidity makeup : Nat) (e : Ev) : Ev :=
  let before := e.p.wbu
  let e1 := e.map fun p => p.upWbu (sampled level turbidity)
  let e2 := setAllowance (before.allowance - makeup) e1
  grantScan (valveRule before.consts.plantNode (holdRule before e2))

/-- R135: the sample timer's expiry. -/
def sampleExpired (e : Ev) : Ev :=
  match e.p.wbu.sampleTimer with
  | .running _ =>
    valveRule e.p.wbu.consts.plantNode
      (raise .waterStale none .none
        (e.map fun p => p.upWbu fun u => { u with freshness := .stale, sampleTimer := .stopped }))
  | .paused _ => e
  | .stopped => e

/-- R129, steps 1 and 2 after the table is replaced. -/
def retabled (c : WaterConsts) (u : Wbu) : Wbu :=
  let lv := min u.level c.capacity
  if u.freshness = .live then
    { u with consts := c, level := lv, quality := qualityOf c u.turbidity, band := bandAfter c u.band lv }
  else { u with consts := c, level := lv }

/-- R129: the event of a WATER WRITE that passes its checks. -/
def waterWritten (c : WaterConsts) (e : Ev) : Ev :=
  let before := e.p.wbu
  let e1 := e.map fun p => p.upWbu (retabled c)
  let e2 :=
    if c.plantNode = before.consts.plantNode then e1
    else
      let e3 := e1.map fun p => p.upWbu fun u => { u with freshness := .stale, sampleTimer := .stopped }
      if before.freshness = .live then raise .waterStale none .none e3 else e3
  grantScan (valveRule before.consts.plantNode (holdRule before e2))

/-- R146. -/
def newDayBegins (e : Ev) : Ev :=
  grantScan (valveRule e.p.wbu.consts.plantNode (setAllowance e.p.wbu.consts.dailyAllowance e))

end Sys2Proof.Machine
end

