-- ==== Sys2Proof/Machine/Rings.lean ====
section
/-! DEFINITION. OQU: arrival (R43 to R46), chains (R47), the claim (R49 to R55), the close of an order in the ring (R57),
the undoing of a claim (R58), FLUSH and the rings' part of a line reset (R59, R61). -/

namespace Sys2Proof.Machine

/-! ### Undoing a claim (R58) -/

/-- R58: the claim of an order that closes before completing is undone: its RESERVED record, its remnant-record
reservations, its job's count, its place on the wait list and its water. The scan that follows the release (R142) can
grant no chain of the station in a FLUSH, which has taken the station off the wait list (log 20). -/
def undoClaim (st : StationNo) (o : OrderRec) (inLineReset : Bool) (e : Ev) : Ev :=
  let e1 := e.map fun p =>
    let p1 := match o.sourceRecord with
      | some n => p.upSlab n (releaseSlab ⟨st, o.slot⟩)
      | none => p
    let p2 := lowerJob o.order.job (returnRecords o.planned p1)
    if o.state = .waiting then p2.upWbu fun u => { u with waitList := upd u.waitList st fun _ => none } else p2
  releaseWater o.remaining inLineReset e1

/-! ### Closing in the ring (R57) -/

/-- R57: the order in a slot, when open, closes with an outcome: its claim is undone, its slot is spent, and its record
is offered. -/
def closeInRing (st : StationNo) (slot : SlotNo) (outcome : CutOutcome) (inLineReset : Bool) (e : Ev) : Ev :=
  match e.p.oqu[st].slots[slot] with
  | none => e
  | some o =>
    if !o.isOpen then e
    else
      let e1 := if o.isClaimed then undoClaim st o inLineReset e else e
      let e2 := e1.map fun p =>
        p.upRing st fun r =>
          (r.upOrder slot fun x => { x with state := .closed outcome, remaining := 0, entered := false }).prune
      let e3 := offer (.spentSlot st slot (recordFrame (closedRecord st o outcome))) e2
      if o.state = .waiting then e3.later (.claim st) else e3

/-- R57: orders that close together do so in ring order from the oldest. -/
def closeAll (st : StationNo) (slots : List (SlotNo × CutOutcome)) (inLineReset : Bool) (e : Ev) : Ev :=
  slots.foldl (fun x so => closeInRing st so.1 so.2 inLineReset x) e

/-! ### Arrival (R43 to R47) -/

/-- R46: the open chain of a station is refused with a refused arrival. -/
def refuseOpenChain (st : StationNo) (e : Ev) : Ev :=
  match e.p.oqu[st].openChain with
  | some c =>
    let slots := (e.p.oqu[st].members c.id).map fun o => (o.slot, CutOutcome.chainRefused)
    raise .chainRefused (some st) (.slot c.first) (closeAll st slots false e)
  | none => e

/-- R45, R46: an order is refused at arrival, or discarded when 8 arrival refusals wait. -/
def refuseArrival (st : StationNo) (o : OrderFields) (outcome : CutOutcome) (e : Ev) : Ev :=
  if Config.waitingPlaces ≤ e.p.portU.waits Waiter.isArrivalRefusal then e
  else refuseOpenChain st (offer (.arrivalRefusal (recordFrame (arrivalRecord st o outcome))) e)

/-- R47: whether a chain is open once its newest member, the `pos`-th, has this chain flag. -/
def chainStateAfter (flag : Bool) (pos : Nat) : ChainState := if flag && decide (pos < 8) then .opened else .unclaimed

/-- R44, R47: an order is written to the slot of the producer index and joins the station's chains. -/
def writeOrder (o : Order) (r : Ring) : Ring :=
  let slot := r.producer
  match r.openChain with
  | some c =>
    let pos := c.members + 1
    { r with
      slots := upd r.slots slot fun _ => some ⟨o, slot, .queued, c.id, pos, none, 0, 0, none, false⟩
      producer := slot + 1
      chains := r.chains.map fun d =>
        if d.id = c.id then { d with members := pos, state := chainStateAfter o.chain pos } else d }
  | none =>
    { r with
      slots := upd r.slots slot fun _ => some ⟨o, slot, .queued, r.nextChain, 1, none, 0, 0, none, false⟩
      producer := slot + 1
      chains := r.chains ++ [⟨r.nextChain, slot, 1, chainStateAfter o.chain 1, 0⟩]
      nextChain := r.nextChain + 1 }

/-- R43: a CUT ORDER is handed to OQU. -/
def takeOrder (st : StationNo) (f : OrderFields) (e : Ev) : Ev :=
  if e.p.oqu[st].isFull then refuseArrival st f .queueFull e
  else
    match orderOf f with
    | none => refuseArrival st f .badOrder e
    | some o =>
      let e1 := e.map fun p => p.upRing st (writeOrder o)
      if e1.p.oqu[st].openChain.isSome then e1 else e1.later (.claim st)

/-! ### The claim (R49 to R55) -/

/-- What a claim has found so far (R50 to R52): the tickets of the members checked, the last one's, the slabs named,
and the running totals. -/
structure Progress where
  tickets : List (SlotNo × Ticket)
  last : Option Ticket
  named : List SlabNo
  records : Nat
  water : Nat
  deriving DecidableEq, Repr

def Progress.start : Progress := ⟨[], none, [], 0, 0⟩

/-- R50's source checks of a member: its stone, or the outcome it fails with. -/
def memberStone (p : Part) (g : Progress) (o : Order) : Except CutOutcome Stone :=
  match o.source with
  | .slab n =>
    match p.stk.slabs[n] with
    | none => .error .slabAbsent
    | some r =>
      if r.state ≠ .stock then .error .slabBusy
      else if !cuttable p.lck n.val then .error .slabLocked
      else if n ∈ g.named then .error .slabTwice
      else .ok r.stone
  | .followOn =>
    match g.last.bind Ticket.planA with
    | some s => .ok s
    | none => .error .noSource

/-- The slab a member names, if it names one. -/
def namedSlab (o : Order) : List SlabNo :=
  match o.source with
  | .slab n => [n]
  | .followOn => []

/-- R50, R52: the checks of one member, in order. -/
def checkMember (p : Part) (st : StationNo) (g : Progress) (o : OrderRec) : Except CutOutcome Progress :=
  if p.jau.jobs[o.order.job].state ≠ .opened then .error .jobNotOpen
  else
    match memberStone p g o.order with
    | .error out => .error out
    | .ok s =>
      match ticketOf p.classes[p.map[st].cls] o.order.source s o.order.len o.order.wid with
      | none => .error .pieceTooLarge
      | some t =>
        let records := g.records + t.planned
        let water := g.water + t.water
        if Config.slabPlaces < usedCount p.stk + p.stk.reservations + records then .error .recordsFull
        else if p.wbu.consts.capacity - p.wbu.consts.lowMark < water then .error .waterTooLarge
        else .ok ⟨g.tickets ++ [(o.slot, t)], some t, g.named ++ namedSlab o.order, records, water⟩

/-- R50: the members in chain order, to the first that fails. -/
def checkChain (p : Part) (st : StationNo) (g : Progress) (ms : List OrderRec) :
    Except (SlotNo × CutOutcome) Progress :=
  match ms with
  | [] => .ok g
  | o :: rest =>
    match checkMember p st g o with
    | .error out => .error (o.slot, out)
    | .ok g1 => checkChain p st g1 rest

/-- R54: a member's record at the claim. -/
def OrderRec.claim (t : Ticket) (o : OrderRec) : OrderRec :=
  { o with state := .waiting, ticket := some t, planned := t.planned }

/-- R54: STK and JAU at the claim of one member. -/
def claimMember (st : StationNo) (p : Part) (o : OrderRec) : Part :=
  let p1 := match o.order.source with
    | .slab n => reserveSlab n ⟨st, o.slot⟩ p
    | .followOn => p
  p1.upJob o.order.job fun j => { j with outstanding := j.outstanding + 1 }

/-- R54: the claim of a chain whose members all pass. -/
def makeClaim (st : StationNo) (c : Chain) (ms : List OrderRec) (g : Progress) (p : Part) : Part :=
  let p1 := (ms.foldl (claimMember st) p).upStk fun k => { k with reservations := k.reservations + g.records }
  p1.upRing st fun r =>
    let r1 := g.tickets.foldl (fun q x => q.upOrder x.1 (OrderRec.claim x.2)) r
    { r1 with chains := r1.chains.map fun d => if d.id = c.id then { d with state := .waiting, need := g.water } else d }

/-- R53: the outcome of each member of a refused chain. -/
def refusals (ms : List OrderRec) (failing : SlotNo) (outcome : CutOutcome) : List (SlotNo × CutOutcome) :=
  ms.map fun o => (o.slot, if o.slot = failing then outcome else .chainRefused)

/-- R49: the conditions on the station. -/
def mayClaim (p : Part) (st : StationNo) : Bool :=
  decide (p.stc[st].state ≠ .service) && decide (p.stc[st].owner = .cell) && p.oqu[st].waitingChain.isNone

/-- The station's oldest UNCLAIMED chain. -/
def Ring.unclaimedChain (r : Ring) : Option Chain := r.chains.find? fun c => decide (c.state = .unclaimed)

/-- R49: the examination of a station's claim. -/
def examineClaim (st : StationNo) (e : Ev) : Ev :=
  if !mayClaim e.p st then e
  else
    match e.p.oqu[st].unclaimedChain with
    | none => e
    | some c =>
      let ms := e.p.oqu[st].members c.id
      match checkChain e.p st .start ms with
      | .error (slot, outcome) =>
        (raise .chainRefused (some st) (.slot slot) (closeAll st (refusals ms slot outcome) false e)).later (.claim st)
      | .ok g => requestWater st g.water (e.map (makeClaim st c ms g))

/-! ### FLUSH and the line reset (R59, R61) -/

/-- R59, R61: the on-deck order closes; its record goes to the station's on-deck record place. -/
def closeOnDeck (st : StationNo) (outcome : CutOutcome) (inLineReset : Bool) (e : Ev) : Ev :=
  match e.p.cpl[st].onDeck with
  | none => e
  | some d =>
    let e1 := (unstageOnDeck st e).map fun p => p.upCpl st fun c => { c with onDeck := none }
    offer (.onDeckPlace st outcome (recordFrame (closedRecord st d.order outcome)))
      (undoClaim st d.order inLineReset e1)

/-- R60: the station leaves the wait list. -/
def leaveWaitList (st : StationNo) (p : Part) : Part :=
  p.upWbu fun u => { u with waitList := upd u.waitList st fun _ => none }

/-- R59, R61: every open order outside the active slot closes, the on-deck order first, and the chain list is
emptied. The station leaves the wait list before the first close, so that no scan after a close (R142) grants the
station's own WAITING chain, whose grant "does not happen" once the FLUSH is taken (R60; log 20, DEDUCED). -/
def flushStation (st : StationNo) (outcome : CutOutcome) (inLineReset : Bool) (e : Ev) : Ev :=
  let e1 := closeOnDeck st outcome inLineReset (e.map (leaveWaitList st))
  let slots := e1.p.oqu[st].openOrders.map fun o => (o.slot, outcome)
  (closeAll st slots inLineReset e1).map fun p => p.upRing st fun r => { r with chains := [] }

end Sys2Proof.Machine
end

