-- ==== Sys2Proof/Machine/Saws.lean ====
section
/-! DEFINITION. CPL: the consumer index and the move to on-deck (R41, R79), staging (R80), promotion (R81 to R83),
reports of the saw (R90 to R92), completion (R93), failure and its cascade (R95, R96) and the pipeline's part of a line
reset (R99). -/

namespace Sys2Proof.Machine

/-! ### The head of the ring (R41, R79) -/

/-- The head slot is spent and its record has entered (R41). -/
def Ring.headSpent (r : Ring) : Bool :=
  !r.isEmpty && (r.slots[r.consumer]).any fun o => !o.isOpen && o.entered

/-- The consumer index passes the head slot, whose contents are discarded. -/
def Ring.advance (r : Ring) : Ring := { r with slots := upd r.slots r.consumer fun _ => none, consumer := r.consumer + 1 }

/-- R41: the consumer index passes the spent slots at the head whose records have entered. -/
def Ring.passSpent (r : Ring) (fuel : Nat) : Ring :=
  match fuel with
  | 0 => r
  | n + 1 => if r.headSpent then passSpent r.advance n else r

/-- The head order, when it is ADMITTED. -/
def Ring.headAdmitted (r : Ring) : Option OrderRec :=
  if r.isEmpty then none else (r.slots[r.consumer]).filter fun o => decide (o.state = .admitted)

/-- R79: the head order moves to on-deck when it is ADMITTED, the slot is empty and no record waits in the place. -/
def moveOnDeck (st : StationNo) (p : Part) : Part :=
  if p.cpl[st].onDeck.isSome || placeOccupied p st then p
  else
    match p.oqu[st].headAdmitted with
    | some o =>
      (p.upRing st fun r => (r.advance.passSpent 16).prune).upCpl st fun c =>
        { c with onDeck := some ⟨{ o with state := .onDeck }, none⟩ }
    | none => p

/-! ### Staging (R80, R84) -/

/-- R84: a CUT STAGE with a new ticket number is placed, and the staged mark is set. -/
def stageProgram (st : StationNo) (d : OnDeck) (t : Ticket) (e : Ev) : Ev :=
  let number := nextTicket e.p.cpl[st]
  placeSaw st .stage (some number) (programBytes number t)
    (e.map fun p => p.upCpl st fun c =>
      { c with ticketNo := number, onDeck := some { d with staged := some number } })

/-- R80: staging, when its conditions hold. -/
def stageOnDeck (st : StationNo) (e : Ev) : Ev :=
  match e.p.cpl[st].onDeck with
  | none => e
  | some d =>
    match d.order.ticket with
    | none => e
    | some t =>
      if d.staged.isNone && !t.takeWhole && e.p.cpl[st].active.isSome && decide (e.p.stc[st].owner = .cell) then
        stageProgram st d t e
      else e

/-! ### Completion (R93) -/

/-- R113: the open FOLLOW-ON member that a kept remnant A of an order is bound to. -/
def boundFollower (p : Part) (st : StationNo) (o : OrderRec) : Option OrderRec :=
  (nextMember p st o).filter fun m => decide (m.order.source = .followOn)

/-- R113: the record of remnant A becomes the follower's source. -/
def bindFollower (st : StationNo) (m : OrderRec) (n : SlabNo) (p : Part) : Part :=
  if m.state = .onDeck then
    p.upCpl st fun c =>
      { c with onDeck := c.onDeck.map fun d => { d with order := { d.order with bound := some n } } }
  else p.upRing st fun r => r.upOrder m.slot fun x => { x with bound := some n }

/-- The state in which each kept remnant is created: the first is A when A is kept (R112, R113). -/
def remnantStates (st : StationNo) (t : Ticket) (follower : Option OrderRec) : List SlabState :=
  t.kept.mapIdx fun i _ =>
    match follower with
    | some m => if i = 0 ∧ t.planA.isSome then .reserved ⟨st, m.slot⟩ else .stock
    | none => .stock

/-- R93 step 2: the remnants are created, the reservation count falls and the source is freed; answers the numbers
created. -/
def completeStock (st : StationNo) (o : OrderRec) (t : Ticket) (n : SlabNo) (source : Slab) (bases : List Nat)
    (p : Part) : Part × List (SlabNo × Nat × Nat) :=
  let follower := boundFollower p st o
  let rs := t.kept.zip (bases.zip (remnantStates st t follower))
  let (k, made) := createRemnants source n t.gen rs p.stk
  let p1 := { p with stk := { k with reservations := k.reservations - o.planned, slabs := upd k.slabs n fun _ => none } }
  let p2 := match follower, t.planA, made with
    | some m, some _, (number, _, _) :: _ => bindFollower st m number p1
    | _, _, _ => p1
  (p2, made)

/-- The cut record of a completed order (R97). -/
def doneRecord (st : StationNo) (o : OrderRec) (t : Ticket) (run water : Nat) (s : Split)
    (made : List (SlabNo × Nat × Nat)) : CutRecord :=
  { closedRecord st o .done with
    source := recordSource o, run := run, water := water, material := s.material, waste := s.waste,
    kerf := t.areaKerf, scrap := t.areaScrap, remnants := made }

/-- R93 steps 1 to 6 for an order whose ticket and source record are these; `moved` is the posting target's change
(R151). -/
def completeOrder (st : StationNo) (o : OrderRec) (t : Ticket) (n : SlabNo) (source : Slab) (run water : Nat)
    (moved : Part → Part) (e : Ev) : Ev :=
  let split := splitOf t source.basis
  let (p1, made) := completeStock st o t n source split.bases e.p
  let e1 := releaseWater o.remaining false { e with p := p1 }
  let e2 := (chargeEntry st o.order.target split.material split.waste e1).map fun p => moved (flushBuffer st p)
  let e3 := e2.map (lowerJob o.order.job)
  offer (.recordHold st o.order.summaryNow (recordFrame (doneRecord st o t run water split made))) e3

/-- The ticket and the source record of a claimed order in CPL's slots, which every such order has (log 14). -/
def orderSource (p : Part) (o : OrderRec) : Option (Ticket × SlabNo × Slab) := do
  let t ← o.ticket
  let n ← o.sourceRecord
  let r ← p.stk.slabs[n]
  return (t, n, r)

/-- R93 step 7, R27: the active slot is emptied, the timers are stopped, a held pause or resume is discarded, and the
station leaves its state. -/
def leaveActive (st : StationNo) (next : StationState) (p : Part) : Part :=
  discardPause st ((p.upCpl st fun c => { c with active := none, overrun := .stopped, stop := .stopped }).upStc st
    fun c => { c with state := next })

/-- R93: the active order closes DONE. -/
def completeActive (st : StationNo) (a : Active) (run : Nat) (e : Ev) : Ev :=
  let close := fun (x : Ev) => (x.map (leaveActive st .idle)).later (.station st)
  match orderSource e.p a.order with
  | some (t, n, r) => close (completeOrder st a.order t n r run a.waterUsed (setTarget st .house) e)
  | none => close e

/-! ### Promotion (R81 to R83) -/

/-- R81. -/
def mayPromote (p : Part) (st : StationNo) : Bool :=
  p.cpl[st].active.isNone && recordHoldEmpty p st && !programWaits p.cpl[st] && decide (p.stc[st].state = .idle)
    && p.stc[st].holds.isEmpty && decide (p.stc[st].owner = .cell) && decide (p.psu.freeze ≠ .frozen)

/-- R86: the overrun limit of a ticket, in ms. -/
def overrunLimit (c : PipeConsts) (t : Ticket) : Nat := ceilDiv (t.tEst * c.percent) 100 + c.grace * 1000

/-- R25: the station leaves IDLE, into RUNNING, or into HELD with WATER and a SAW PAUSE held behind the program. -/
def enterPromoted (st : StationNo) (p : Part) : Part :=
  if holdCondition p.wbu then
    p.upStc st fun c =>
      { c with state := .held, holds := c.holds.put .water true, behind := some (pauseFrame p st false) }
  else p.upStc st fun c => { c with state := .running }

/-- R82 steps 1, 2 and 4: the order is active with this ticket number, its record CUTTING, its timer loaded. -/
def activate (st : StationNo) (d : OnDeck) (t : Ticket) (number : Byte) (p : Part) : Part :=
  let p1 := match d.order.sourceRecord with
    | some n => p.upSlab n cutSlab
    | none => p
  p1.upCpl st fun c =>
    { c with onDeck := none, active := some ⟨{ d.order with state := .active }, number, 0, none, 0, 0⟩,
             overrun := .paused (overrunLimit p.pipe t) }

/-- R82: the promotion of an order that is not take-whole. -/
def promoteOrder (st : StationNo) (d : OnDeck) (t : Ticket) (e : Ev) : Ev :=
  let target := d.order.order.target
  let e1 := match d.staged with
    | some number =>
      placeSaw st .go (some number) [number] (e.map fun p => enterPromoted st (activate st d t number p))
    | none =>
      let number := nextTicket e.p.cpl[st]
      placeSaw st .run (some number) (programBytes number t)
        (e.map fun p => enterPromoted st ((activate st d t number p).upCpl st fun c => { c with ticketNo := number }))
  (e1.map fun p => setTarget st target (flushBuffer st p)).later (.station st)

/-- R83: a take-whole order is promoted and completes DONE in one step. -/
def promoteWhole (st : StationNo) (d : OnDeck) (e : Ev) : Ev :=
  let e1 := e.map fun p => flushBuffer st (p.upCpl st fun c => { c with onDeck := none })
  match orderSource e1.p d.order with
  | some (t, n, r) => (completeOrder st d.order t n r 0 0 id e1).later (.station st)
  | none => e1.later (.station st)

/-- R79 to R83, R41: CPL examines a station: spent slots are passed, the head moves to on-deck, the on-deck order is
promoted or else staged. -/
def examineStation (st : StationNo) (e : Ev) : Ev :=
  let e1 := e.map fun p => moveOnDeck st (p.upRing st fun r => r.passSpent 16)
  match e1.p.cpl[st].onDeck with
  | none => e1
  | some d =>
    match d.order.ticket with
    | none => e1
    | some t =>
      if mayPromote e1.p st then
        if t.takeWhole then promoteWhole st d e1 else promoteOrder st d t e1
      else stageOnDeck st e1

/-! ### Failure (R95, R96) -/

/-- R96: a dependent follower closes PREDECESSOR_LOST. -/
def closeFollower (st : StationNo) (m : OrderRec) (e : Ev) : Ev :=
  if m.state = .onDeck then
    let e1 := undoClaim st m false (e.map fun p => p.upCpl st fun c => { c with onDeck := none })
    offer (.recordHold st false (recordFrame (failedRecord st m .predecessorLost 0 0))) e1
  else closeInRing st m.slot .predecessorLost false e

/-- R96: the run of dependent followers behind an order. -/
def cascade (st : StationNo) (o : OrderRec) (fuel : Nat) (e : Ev) : Ev :=
  match fuel with
  | 0 => e
  | n + 1 =>
    match boundFollower e.p st o with
    | some m => cascade st m n (closeFollower st m e)
    | none => e

/-- R95: the active order closes with an outcome other than DONE; the station passes to `next` (R27). -/
def failActive (st : StationNo) (a : Active) (outcome : CutOutcome) (run : Nat) (next : StationState)
    (inLineReset : Bool) (e : Ev) : Ev :=
  let o := a.order
  let e1 := match o.sourceRecord with
    | some n => raise .slabDoubtful (some st) (.slab n) (e.map fun p => p.upSlab n doubtSlab)
    | none => e
  let e2 := undoClaim st o inLineReset e1
  let e3 := e2.map fun p => setTarget st .house (leaveActive st next p)
  let e4 := offer (.recordHold st false (recordFrame (failedRecord st o outcome run a.waterUsed))) e3
  let e5 := if inLineReset then e4 else cascade st o 8 e4
  e5.later (.station st)

/-! ### Reports (R88, R90 to R92) -/

/-- R90: the active order has a program frame on the frame list, or is not the one with this ticket number. -/
def isReported (c : Pipeline) (ticket : Byte) : Bool :=
  (c.active.any fun a => decide (a.ticket = ticket)) && !programWaits c

/-- R90, R196: CUT PASS. -/
def passReported (st : StationNo) (ticket pass : Byte) (p : Part) : Part :=
  if isReported p.cpl[st] ticket && decide (1 ≤ pass.toNat) && decide (pass.toNat ≤ 32) then
    p.upCpl st fun c => { c with active := c.active.map fun a => { a with pass := pass.toNat } }
  else p

/-- R91: what a CUT DONE's outcome code reports; a code that names nothing is FAULT (R90). -/
inductive Report where
  | complete | stopped | fault
  deriving DecidableEq, Repr

def reportOf (code : Byte) : Report :=
  match code.toNat with
  | 0 => .complete
  | 1 => .stopped
  | _ => .fault

/-- The outcome of a stop reason (R91). -/
def StopReason.outcome (r : StopReason) : CutOutcome :=
  match r with
  | .aborted => .aborted
  | .overrun => .overrun

/-- R90, R91: CUT DONE. -/
def doneReported (st : StationNo) (ticket outcome : Byte) (run : Nat) (e : Ev) : Ev :=
  match e.p.cpl[st].active with
  | none => raise .lateDone (some st) .none e
  | some a0 =>
    if !isReported e.p.cpl[st] ticket then raise .lateDone (some st) .none e
    else
      let a := { a0 with run := run }
      match reportOf outcome with
      | .complete => completeActive st a run e
      | .fault =>
        failActive st a .sawFault run .service false (raise .sawFault (some st) (.slot a.order.slot) e)
      | .stopped =>
        match a.stop with
        | some why => failActive st a why.outcome run .idle false e
        | none => failActive st a .aborted run .idle false (raise .cutAborted (some st) (.slot a.order.slot) e)

/-- R88: the stop timer's expiry. -/
def stopExpired (st : StationNo) (e : Ev) : Ev :=
  match e.p.cpl[st].stop, e.p.cpl[st].active with
  | .running _, some a =>
    raise .sawSilent (some st) (.slot a.order.slot) (failActive st a .noReply 0 .service false e)
  | _, _ => e

/-- R92: a sample's water counts for the active order. -/
def countWater (st : StationNo) (w : Nat) (p : Part) : Part :=
  p.upCpl st fun c => { c with active := c.active.map fun a => { a with waterUsed := satAdd a.waterUsed w } }

/-- R92, R141, R153: a USAGE sample. -/
def takeUsage (st : StationNo) (w en r : Nat) (e : Ev) : Ev :=
  postSample st w en r (e.map fun p => countWater st w (debit st w p))

/-! ### The line reset (R61, R99) -/

/-- R99, R61: CPL closes the active order of a station, then OQU closes the others. -/
def resetStation (st : StationNo) (e : Ev) : Ev :=
  let e1 := match e.p.cpl[st].active with
    | none => e
    | some a =>
      let e0 := dropSaw st SawFrame.isProgram e
      let e2 := if stopWaits e0.p.cpl[st] then e0 else placeSaw st .stop none [] e0
      failActive st a .lineReset 0 .service true e2
  flushStation st .lineReset true e1

end Sys2Proof.Machine
end

