-- ==== Sys2Proof/Machine/LineReset.lean ====
section
/-! DEFINITION. LINE RESET: its beginning in every block (R17, R19, R39, R61, R99, R117, R150, R165, R183) and the test
that its parts are complete (R17, R194). -/

namespace Sys2Proof.Machine

/-- R19: the frames received and not yet handed over are dropped, and counted. -/
def dropReceived (q : PortState) : PortState :=
  { q with received := [], dropped := min 65535 (q.dropped + q.received.length) }

/-- R39: the hold set is emptied, the owner is CELL, and a station without an active order is in SERVICE. -/
def resetContext (active : Bool) (c : StationCtx) : StationCtx :=
  { c with holds := .empty, owner := .cell, state := if active then c.state else .service }

/-- R19, R39, R150, R165: what begins for all stations together. -/
def resetBegins (p : Part) : Part :=
  let p1 : Part := { p with portU := dropReceived p.portU, portD := dropReceived p.portD }
  let p2 : Part := allStations.foldl (fun (q : Part) st => q.upStc st (resetContext q.cpl[st].active.isSome)) p1
  let p3 : Part := p2.upWbu fun u => { u with waitList := Vector.replicate 8 none }
  flushAll (if p3.psu.freeze = .frozen then thaw p3 else p3)

/-- The stations whose buffer has a drain in flight. -/
def drainingStations (u : Psu) : List StationNo := allStations.filter fun st => decide (0 < u.posts[st].covered)

/-- The request in progress waits for the line reset's parts. -/
def setPhase (ph : Phase) (p : Part) : Part :=
  p.upMgu fun m => { m with inProgress := m.inProgress.map fun r => { r with phase := ph } }

/-- R17: the line reset begins. -/
def beginLineReset (e : Ev) : Ev :=
  let e1 := allStations.foldl (fun x st => resetStation st x) (e.map resetBegins)
  e1.map fun p => setPhase (.resetting (drainingStations p.psu)) p

/-- A spent slot of a station holds a LINE_RESET record that has not entered (R61). -/
def resetRecordWaits (r : Ring) : Bool :=
  r.slots.toList.any fun o => o.any fun x => decide (x.state = .closed .lineReset) && !x.entered

/-- R61, R99: every record of the line reset and every SAW STOP has entered. -/
def resetFramesEntered (p : Part) : Bool :=
  !p.portU.anyWaits Waiter.isAnyHold
    && !(p.portU.anyWaits fun w => match w with | .onDeckPlace _ o _ => decide (o = .lineReset) | _ => false)
    && allStations.all fun st => !stopWaits p.cpl[st] && !resetRecordWaits p.oqu[st]

/-- R17, R194: every other block has completed its part and all eight stations are in SERVICE (log 13, DEDUCED). -/
def resetPartsDone (p : Part) (draining : List StationNo) : Bool :=
  draining.isEmpty && allInService p && resetFramesEntered p

end Sys2Proof.Machine
end

