-- ==== Sys2Proof/Machine/Requests.lean ====
section
/-! DEFINITION. MGU: the request queue (R12, R13), and each management request's checks, effect, status and result
fields (R14 to R17 and the owners' rules). -/

namespace Sys2Proof.Machine

/-- What a request has done, its status and its result fields. -/
structure Reply where
  e : Ev
  status : Status
  bytes : List Byte
  deriving DecidableEq, Repr

/-- A refusal, or an answer without result fields (R204). -/
def plain (e : Ev) (s : Status) : Reply := ⟨e, s, []⟩

/-- DONE with result fields and no effect. -/
def report (e : Ev) (bytes : List Byte) : Reply := ⟨e, .done, bytes⟩

/-- CLAMPED when any field was clamped, DONE when none was (R15). -/
def writeStatus (clamped : Bool) : Status := if clamped then .clamped else .done

/-! ### Map and stations (R20, R21, R23, R24) -/

/-- R20. -/
def mapRead (station : Byte) (e : Ev) : Reply :=
  match index 8 station.toNat with
  | some st => report e (mapBytes e.p.map[st])
  | none => plain e .badValue

/-- R21 step 2: the conditions on the station. -/
def mapWritable (p : Part) (st : StationNo) : Bool :=
  decide (p.stc[st].state = .service) && p.oqu[st].isEmpty && p.cpl[st].onDeck.isNone && p.cpl[st].active.isNone

/-- R21 step 3: another mapped entry has this node address. -/
def nodeTaken (p : Part) (st : StationNo) (node : Nat) : Bool :=
  allStations.any fun x => decide (x ≠ st) && p.map[x].mapped && decide (p.map[x].node = node)

/-- R21: the write, and what a change of node address or enabled flag does to owner and hold set. -/
def writeMap (st : StationNo) (new : MapEntry) (p : Part) : Part :=
  let old := p.map[st]
  let p1 := p.upMap st fun _ => new
  if old.node = new.node ∧ old.enabled = new.enabled then p1
  else p1.upStc st fun c => { c with owner := .cell, holds := .empty }

/-- R21. -/
def mapWrite (station node cls enabled : Byte) (e : Ev) : Reply :=
  match index 8 station.toNat, index 4 cls.toNat, flagOf enabled with
  | some st, some c, some en =>
    let new : MapEntry := ⟨node.toNat, c, en⟩
    if !nodeOk node.toNat then plain e .badValue
    else if !mapWritable e.p st then plain e .inUse
    else if new.mapped && nodeTaken e.p st new.node then plain e .badValue
    else plain (e.map (writeMap st new)) .done
  | _, _, _ => plain e .badValue

/-- R23. -/
def releaseStation (station : Byte) (e : Ev) : Reply :=
  match index 8 station.toNat with
  | none => plain e .badValue
  | some st =>
    if !e.p.map[st].mapped then plain e .badValue
    else if e.p.stc[st].state = .service then
      plain (((e.map fun p => p.upStc st fun c => { c with state := .idle }).later (.claim st)).later (.station st)) .done
    else plain e .done

/-- R24. -/
def serviceStation (station : Byte) (e : Ev) : Reply :=
  match index 8 station.toNat with
  | none => plain e .badValue
  | some st =>
    if e.p.cpl[st].active.isSome then plain e .inUse
    else if e.p.stc[st].state = .idle then plain (e.map fun p => p.upStc st fun c => { c with state := .service }) .done
    else plain e .done

/-! ### Saw classes and pipeline constants (R63, R64, R89) -/

/-- R64. -/
def classRead (cls : Byte) (e : Ev) : Reply :=
  match index 4 cls.toNat with
  | some c => report e (classBytes e.p.classes[c])
  | none => plain e .badValue

/-- R63. -/
def classWrite (cls : Byte) (f : ClassFields) (e : Ev) : Reply :=
  match index 4 cls.toNat with
  | some c =>
    plain (e.map fun p => { p with classes := upd p.classes c fun _ => (classOf f).1 }) (writeStatus (classOf f).2)
  | none => plain e .badValue

/-- R89. -/
def pipeRead (e : Ev) : Reply := report e (pipeBytes e.p.pipe)

/-- R89. -/
def pipeWrite (percent grace : Half) (stop : Byte) (e : Ev) : Reply :=
  let x := pipeOf percent grace stop
  plain (e.map fun p => { p with pipe := x.1 }) (writeStatus x.2)

/-! ### Slab stock (R105, R108 to R111) -/

/-- R105. -/
def slabWrite (f : SlabFields) (e : Ev) : Reply :=
  match index 512 f.number.toNat, flagOf f.createOnly, index 8 f.material.toNat, parentOf f.parent with
  | some n, some createOnly, some material, some parent =>
    match slabWriteRefused e.p.stk e.p.lck n createOnly with
    | some status => plain e status
    | none =>
      let x := slabOf f material parent
      if slabCrossOk n x.1 then ⟨e.map fun p => p.upSlab n fun _ => some x.1, writeStatus x.2, slabBytes n x.1⟩
      else plain e .badValue
  | _, _, _, _ => plain e .badValue

/-- R108. -/
def slabRemove (number : Half) (e : Ev) : Reply :=
  match index 512 number.toNat with
  | none => plain e .badValue
  | some n =>
    match e.p.stk.slabs[n] with
    | none => plain e .notFound
    | some r =>
      if r.isHeld then plain e .inUse
      else if !cuttable e.p.lck n.val then plain e .slabLocked
      else plain (e.map fun p => p.upSlab n fun _ => none) .done

/-- R109. -/
def slabRead (number : Half) (e : Ev) : Reply :=
  match index 512 number.toNat with
  | none => plain e .badValue
  | some n =>
    match e.p.stk.slabs[n] with
    | none => plain e .notFound
    | some r => report e (slabBytes n r)

/-- R110. -/
def slabScan (start : Half) (e : Ev) : Reply :=
  match index 512 start.toNat with
  | none => plain e .badValue
  | some n =>
    match findSlab e.p.stk n.val Option.isSome with
    | none => plain e .notFound
    | some m =>
      match e.p.stk.slabs[m] with
      | none => plain e .notFound
      | some r => report e (slabBytes m r)

/-- R111. -/
def stockCount (e : Ev) : Reply := report e (countBytes e.p.stk)

/-! ### Stock lock (R121 to R124) -/

/-- An answer that carries the lock state as it stands after the request. -/
def lockReply (e : Ev) (s : Status) : Reply := ⟨e, s, lockBytes e.p.lck⟩

/-- R121. -/
def lockRange (low high : Half) (invert : Byte) (e : Ev) : Reply :=
  match flagOf invert with
  | none => plain e .badValue
  | some inv =>
    if e.p.lck.disabled then lockReply e .lockDisabled
    else if e.p.lck.hard then lockReply e .hardLocked
    else
      lockReply (e.map fun p => p.upLck fun l =>
          { l with low := clamp 0 511 low.toNat, high := clamp 0 511 high.toNat, invert := inv })
        (writeStatus (outside 0 511 low.toNat || outside 0 511 high.toNat))

/-- The power-up range: empty, invert clear (R118, R122, R126). -/
def Lck.emptied (l : Lck) : Lck := { l with low := 1, high := 0, invert := false }

/-- R122. -/
def lockAll (e : Ev) : Reply :=
  if e.p.lck.disabled then lockReply e .lockDisabled
  else if e.p.lck.hard then lockReply e .hardLocked
  else lockReply (e.map fun p => p.upLck Lck.emptied) .done

/-- R123. -/
def lockHard (e : Ev) : Reply :=
  if e.p.lck.disabled then lockReply e .lockDisabled
  else lockReply (e.map fun p => p.upLck fun l => { l with hard := true }) .done

/-- R124. -/
def lockQuery (e : Ev) : Reply := lockReply e (if e.p.lck.disabled then .lockDisabled else .done)

/-! ### Water (R129, R130, R146, R147) -/

/-- R129. -/
def waterWrite (f : WaterFields) (e : Ev) : Reply :=
  let x := waterOf f
  if !nodeOk f.plantNode.toNat then plain e .badValue
  else if !marksOk x.1 then plain e .badValue
  else plain (waterWritten x.1 e) (writeStatus x.2)

/-- R130. -/
def waterRead (e : Ev) : Reply := report e (waterConstBytes e.p.wbu.consts)

/-- R147. -/
def waterState (e : Ev) : Reply := report e (waterStateBytes e.p)

/-- R146. -/
def newDay (e : Ev) : Reply :=
  let e1 := newDayBegins e
  report e1 (num32 e1.p.wbu.allowance)

/-! ### Posting (R159, R162) -/

/-- R159. -/
def postingWrite (period : Byte) (limit : Half) (e : Ev) : Reply :=
  let x := postingOf period limit
  plain (e.map fun p => p.upPsu fun u => { u with period := x.1.1, limit := x.1.2 }) (writeStatus x.2)

/-- R159. -/
def postingRead (e : Ev) : Reply := report e (postingBytes e.p.psu)

/-- R162. -/
def auditThaw (e : Ev) : Reply :=
  if e.p.psu.freeze = .frozen then report (thawAndFlush e) (numFlag true) else report e (numFlag false)

/-! ### Jobs and rates (R173 to R176, R179) -/

/-- An answer that carries the job's state and counts as they stand after the request. -/
def jobReply (n : JobNo) (e : Ev) (s : Status) : Reply := ⟨e, s, jobBytes e.p.jau.jobs[n]⟩

/-- R173: a job opened with a customer reference. -/
def Job.openWith (reference : Nat) (j : Job) : Job :=
  { j with state := .opened, reference := reference, production := .zero, rework := .zero, service := .zero }

/-- R173. -/
def jobOpen (job : Byte) (reference : Word) (e : Ev) : Reply :=
  match index 64 job.toNat with
  | none => plain e .badValue
  | some n =>
    if n = 0 then jobReply n e .jobState
    else if e.p.psu.freeze = .frozen then jobReply n e .frozen
    else if e.p.jau.jobs[n].state = .free ∨ e.p.jau.jobs[n].state = .closed then
      jobReply n (e.map fun p => p.upJob n (Job.openWith reference.toNat)) .done
    else jobReply n e .jobState

/-- R174. -/
def jobClose (job : Byte) (e : Ev) : Reply :=
  match index 64 job.toNat with
  | none => plain e .badValue
  | some n =>
    if n = 0 then jobReply n e .jobState
    else if e.p.jau.jobs[n].state = .opened then
      jobReply n (e.map fun p => p.upJob n fun j => Job.settled { j with state := .closing }) .done
    else jobReply n e .jobState

/-- R175: a FREE record holds no job; its other fields are written anew by JOB OPEN. -/
def jobDiscard (job : Byte) (e : Ev) : Reply :=
  match index 64 job.toNat with
  | none => plain e .badValue
  | some n =>
    if n = 0 then jobReply n e .jobState
    else if e.p.psu.freeze = .frozen then jobReply n e .frozen
    else if e.p.jau.jobs[n].state = .closed then jobReply n (e.map fun p => p.upJob n fun _ => .free) .done
    else jobReply n e .jobState

/-- R179. -/
def ratesWrite (water run : Word) (energy : Half) (e : Ev) : Reply :=
  let x := ratesOf water run energy
  plain (e.map fun p =>
    { p with jau := { p.jau with waterRate := x.1.1, runRate := x.1.2.1, energyRate := x.1.2.2 } }) (writeStatus x.2)

/-- R179. -/
def ratesRead (e : Ev) : Reply := report e (ratesBytes e.p.jau)

/-! ### Notices and summaries (R189 to R191) -/

/-- R190. -/
def noticeRead (e : Ev) : Reply :=
  let read := noticesRead e.p.ntu
  let e1 := e.map fun p => p.upNtu dropRead
  report e1 (num8 read.length ++ num8 e1.p.ntu.entries.length ++ read.flatMap noticeBytes)

/-- R189. -/
def attentionAcked (e : Ev) : Reply :=
  let e1 := ackAttention e
  report e1 (num8 e1.p.ntu.entries.length ++ numFlag e1.p.ntu.outstanding)

/-- R191: the period takes a value; from 0 to another the timer is loaded and started, at 0 it is stopped. -/
def setPeriod (n : Nat) (u : Ntu) : Ntu :=
  let u1 := { u with period := n }
  if n = 0 then { u1 with timer := .stopped }
  else if u.period = 0 then { u1 with timer := summaryTimer u1 }
  else u1

/-- R191. -/
def summaryWrite (period : Byte) (e : Ev) : Reply :=
  plain (e.map fun p => p.upNtu (setPeriod (clamp 0 100 period.toNat))) (writeStatus (outside 0 100 period.toNat))

/-- R191. -/
def summaryRead (e : Ev) : Reply := report e (summaryReadBytes e.p.ntu)

/-! ### Answers (R12 to R14) -/

/-- MGU offers the answer of a request, behind the frames its owner has offered (log 11, DEDUCED). -/
def sendReply (code tag : Byte) (x : Reply) : Ev :=
  offer (.manageAnswer none (answerFrame code tag x.status x.bytes)) x.e

/-- R176, R204: JOB READ: two segments, or a refusal. -/
def jobReadAnswer (code tag job : Byte) (e : Ev) : Ev :=
  match index 64 job.toNat with
  | none => sendReply code tag (plain e .badValue)
  | some n =>
    let j := e.p.jau.jobs[n]
    if j.state = .free then sendReply code tag (plain e .notFound)
    else
      offer (.manageAnswer (some (answerFrame code tag .done (jobSegment2 e.p.jau j)))
        (answerFrame code tag .done (jobSegment1 e.p.jau j))) e

/-- R160: AUDIT FREEZE: PENDING, or answered FROZEN. -/
def auditFreezeAnswer (code tag : Byte) (e : Ev) : Ev :=
  if e.p.psu.freeze = .frozen then sendReply code tag (plain e .frozen)
  else e.map fun p => setPhase .freezing (p.upPsu fun u => { u with freeze := .pending })

/-- MGU passes a request to its owner, and offers the answer of those answered at once (R12). -/
def carryOut (r : Request) (e : Ev) : Ev :=
  let now := fun (x : Reply) => sendReply r.code r.tag x
  match r.body with
  | .malformed => now (plain e .badValue)
  | .identify => now (report e (identifyBytes e.p.mgu))
  | .lineReset => beginLineReset e
  | .mapRead station => now (mapRead station e)
  | .mapWrite station node cls enabled => now (mapWrite station node cls enabled e)
  | .releaseStation station => now (releaseStation station e)
  | .serviceStation station => now (serviceStation station e)
  | .classRead cls => now (classRead cls e)
  | .classWrite cls entry => now (classWrite cls entry e)
  | .pipeRead => now (pipeRead e)
  | .pipeWrite percent grace stop => now (pipeWrite percent grace stop e)
  | .slabWrite fields => now (slabWrite fields e)
  | .slabRemove number => now (slabRemove number e)
  | .slabRead number => now (slabRead number e)
  | .slabScan start => now (slabScan start e)
  | .stockCount => now (stockCount e)
  | .lockRange low high invert => now (lockRange low high invert e)
  | .lockAll => now (lockAll e)
  | .lockHard => now (lockHard e)
  | .lockQuery => now (lockQuery e)
  | .waterWrite fields => now (waterWrite fields e)
  | .waterRead => now (waterRead e)
  | .waterState => now (waterState e)
  | .newDay => now (newDay e)
  | .postingWrite period limit => now (postingWrite period limit e)
  | .postingRead => now (postingRead e)
  | .auditFreeze => auditFreezeAnswer r.code r.tag e
  | .auditThaw => now (auditThaw e)
  | .jobOpen job reference => now (jobOpen job reference e)
  | .jobClose job => now (jobClose job e)
  | .jobDiscard job => now (jobDiscard job e)
  | .jobRead job => jobReadAnswer r.code r.tag job e
  | .ratesWrite water run energy => now (ratesWrite water run energy e)
  | .ratesRead => now (ratesRead e)
  | .noticeRead => now (noticeRead e)
  | .ackAttention => now (attentionAcked e)
  | .summaryWrite period => now (summaryWrite period e)
  | .summaryRead => now (summaryRead e)

/-- R13: a request that finds four queued is answered BUSY, or discarded when a BUSY answer waits already. A payload
shorter than two bytes has no tag or no code "as received": the BUSY answer carries 0 in its place, as R14 states for
requests that are taken (log 19, DEDUCED). -/
def busyAnswer (r : Request) (e : Ev) : Ev :=
  if e.p.portU.anyWaits Waiter.isBusy then e.map (countDrop .U)
  else offer (.busy (answerFrame r.code r.tag .busy [])) e

/-- R12: a MANAGE REQUEST is handed to MGU. -/
def handRequest (r : Request) (e : Ev) : Ev :=
  if e.p.mgu.queue.length < Config.requestPlaces then
    e.map fun p => p.upMgu fun m => { m with queue := m.queue ++ [r] }
  else busyAnswer r e

/-- R12: MGU takes the request at the front of its queue when none is in progress. -/
def takeRequest (e : Ev) : Option Ev :=
  match e.p.mgu.inProgress, e.p.mgu.queue with
  | none, r :: rest =>
    some (carryOut r (e.map fun p => p.upMgu fun m =>
      { m with queue := rest, inProgress := some ⟨r.code, r.tag, .answering⟩ }))
  | _, _ => none

end Sys2Proof.Machine
end

