-- ==== Sys2Proof/Machine/Events.lean ====
section
/-! DEFINITION. One event from its first change to its end: follow-up examinations (95: "each whole and indivisible"),
AUDIT FREEZE taking effect (R160), the completion of a line reset (R17, R194) and the next request (R12). -/

namespace Sys2Proof.Machine

/-- One follow-up examination. -/
def runTask (t : Task) (e : Ev) : Ev :=
  match t with
  | .station st => examineStation st e
  | .claim st => examineClaim st e
  | .summary => formSummary e

/-- The follow-up examinations in the order they were asked for, to the last. -/
def settle (fuel : Nat) (e : Ev) : Ev :=
  match fuel with
  | 0 => e
  | n + 1 =>
    match e.todo with
    | [] => e
    | t :: rest => settle n (runTask t { e with todo := rest })

/-- R160: in PENDING, the first event in which no drain is in flight makes the state FROZEN and answers AUDIT FREEZE. -/
def freezeCheck (e : Ev) : Ev :=
  match e.p.mgu.inProgress with
  | none => e
  | some r =>
    if r.phase = .freezing ∧ e.p.psu.freeze = .pending ∧ anyDrain e.p.psu = false then
      sendReply r.code r.tag (plain (e.map fun p => setPhase .answering (freezeNow p)) .done)
    else e

/-- R194, R17: the LINE RESET is answered DONE. -/
def answerLineReset (r : InProgress) (e : Ev) : Ev :=
  sendReply r.code r.tag (plain (e.map (setPhase .answering)) .done)

/-- R17, R194: once every part is complete LINE_RESET_DONE is raised, and once the ATTENTION it formed, if any, has
entered, the LINE RESET is answered. -/
def lineResetCheck (e : Ev) : Ev :=
  match e.p.mgu.inProgress with
  | none => e
  | some r =>
    match r.phase with
    | .resetting draining =>
      if resetPartsDone e.p draining then
        let e1 := raise .lineResetDone none .none e
        if !e.p.ntu.outstanding && e1.p.portU.anyWaits Waiter.isAttention then e1.map (setPhase .attending)
        else answerLineReset r e1
      else e
    | .attending => if e.p.portU.anyWaits Waiter.isAttention then e else answerLineReset r e
    | .answering => e
    | .freezing => e

/-- The end of an event: its examinations, the answers they make due, and the requests that MGU then takes. -/
def finish (fuel : Nat) (e : Ev) : Ev :=
  match fuel with
  | 0 => e
  | n + 1 =>
    let e1 := lineResetCheck (freezeCheck (settle Config.eventFuel e))
    match takeRequest e1 with
    | some e2 => finish n e2
    | none => e1

/-- One whole event. -/
def event (f : Ev → Ev) (p : Part) : Part := closeGroups (finish Config.requestFuel (f ⟨p, []⟩)).p

end Sys2Proof.Machine
end

