-- ==== Sys2Proof/Machine/Line.lean ====
section
/-! DEFINITION. LIF: receivers (R2, R3), classification (R6 to R8), hand-over to the owners (R7, R35), forwarding
(R10), transmission (R9) and the entries of waiting frames (R11). -/

namespace Sys2Proof.Machine

/-! ### The owners' actions on a frame -/

/-- R35 to R38, R59: a STATION COMMAND for a station. -/
def stationCommand (st : StationNo) (code : Byte) (e : Ev) : Ev :=
  match code.toNat with
  | 1 => commanded st code (holdCommand st) (ownerStatus st) e
  | 2 => commanded st code (resumeCommand st) (ownerStatus st) e
  | 3 => commanded st code (abortCommand st) (fun _ => .done) e
  | 4 => commanded st code (flushStation st .cancelled false) (fun _ => .done) e
  | _ => commanded st code id (fun _ => .badValue) e

/-- R31 to R33: a panel frame of a station's saw, by its kind. -/
def panelFrameTaken (st : StationNo) (kind : Byte) (e : Ev) : Ev :=
  match kind.toNat with
  | 0x64 => panelClaimed st e
  | 0x65 => panelReleased st e
  | 0x66 => addHold st .panel e
  | 0x67 => removeHold st .panel e
  | _ => e

/-! ### Classification (R6 to R8, R196) -/

/-- An intercepted kind: handed over at its length, dropped at any other (R7). -/
def intercepted (st : Option StationNo) (f : Frame) (length : Nat) (c : StationNo → FrameClass) : Option FrameClass :=
  match st with
  | some x => if f.payload.length = length then some (c x) else none
  | none => some .forward

/-- An act-and-forward kind: at any other length it is forwarded only (R7). -/
def actedOn (st : Option StationNo) (f : Frame) (length : Nat) (c : StationNo → FrameClass) : Option FrameClass :=
  match st with
  | some x => if f.payload.length = length then some (c x) else some .forward
  | none => some .forward

/-- R132: the plant node is not 0 and is the frame's source. It is tested at the classification, and again as the sample
reaches WBU, so that no sample of a node that WATER WRITE has left makes freshness LIVE (R129, R144; log 5, DEDUCED). -/
def fromPlant (p : Part) (src : Byte) : Bool :=
  decide (p.wbu.consts.plantNode ≠ 0) && decide (src.toNat = p.wbu.consts.plantNode)

/-- R132: a sample reaches WBU when its source is the plant node as the frame is handed over. -/
def reachesWbu (src : Byte) (act : Ev → Ev) (e : Ev) : Ev := if fromPlant e.p src then act e else e

/-- R6: what LIF does with a checked frame, none for an intercepted frame of the wrong length. -/
def classify (p : Part) (x : Port) (f : Frame) : Option FrameClass :=
  match x with
  | .U =>
    match f.kind.toNat with
    | 0x21 => intercepted (stationOf p f.dst) f 12 .cutOrder
    | 0x22 => intercepted (stationOf p f.dst) f 1 .command
    | 0x30 =>
      if f.dst.toNat = Config.partNode then
        if f.src.toNat = Config.cellNode then some .manage else some .foreign
      else some .forward
    | _ => some .forward
  | .D =>
    match f.kind.toNat with
    | 0x30 => some .foreign
    | 0x61 => intercepted (stationOf p f.src) f 6 .cutDone
    | 0x62 => actedOn (stationOf p f.src) f 2 .cutPass
    | 0x63 => actedOn (stationOf p f.src) f 6 .usage
    | 0x64 => actedOn (stationOf p f.src) f 0 .panel
    | 0x65 => actedOn (stationOf p f.src) f 0 .panel
    | 0x66 => actedOn (stationOf p f.src) f 0 .panel
    | 0x67 => actedOn (stationOf p f.src) f 0 .panel
    | 0x71 =>
      if fromPlant p f.src ∧ f.payload.length = 10 then some .sample else some .forward
    | _ => some .forward

/-! ### Hand-over (R7) -/

/-- A received frame reaches its owner, the opposite queue, or both. -/
def handOne (x : Port) (r : Received) (e : Ev) : Ev :=
  match r.cls with
  | .cutOrder st =>
    match decodeOrder r.frame.payload with
    | some o => takeOrder st o e
    | none => e
  | .command st =>
    match r.frame.payload with
    | code :: _ => stationCommand st code e
    | [] => e
  | .manage => handRequest (decodeRequest r.frame.payload) e
  | .foreign => raise .foreignManage none .none e
  | .cutDone st =>
    match decodeCutDone r.frame.payload with
    | some (ticket, outcome, run) => doneReported st ticket outcome run.toNat e
    | none => e
  | .cutPass st =>
    forward x r.frame
      (match r.frame.payload with
       | ticket :: pass :: _ => e.map (passReported st ticket pass)
       | _ => e)
  | .usage st =>
    forward x r.frame
      (match decodeUsage r.frame.payload with
       | some (w, en, run) => takeUsage st w.toNat en.toNat run.toNat e
       | none => e)
  | .panel st => forward x r.frame (panelFrameTaken st r.frame.kind e)
  | .sample =>
    forward x r.frame
      (match decodeSample r.frame.payload with
       | some (level, turbidity, makeup) =>
         reachesWbu r.frame.src (takeSample level.toNat turbidity.toNat makeup.toNat) e
       | none => e)
  | .forward => forward x r.frame e

/-- The received frames of a port are handed over in the order of their receptions, each an event of its own. -/
def handOver (x : Port) (fuel : Nat) (p : Part) : Part :=
  match fuel with
  | 0 => p
  | n + 1 =>
    match (p.port x).received with
    | [] => p
    | r :: rest => handOver x n (event (handOne x r) (p.upPort x fun q => { q with received := rest }))

def handAll (x : Port) (p : Part) : Part := handOver x (p.port x).received.length p

/-! ### Receivers (R2, R3) -/

def setReceiver (x : Port) (r : Receiver) (p : Part) : Part := p.upPort x fun q => { q with receiver := r }

/-- R2: the receive pair goes idle. -/
def pairIdle (x : Port) (p : Part) : Part :=
  match (p.port x).receiver with
  | .settling => setReceiver x .ready p
  | .ready => p
  | .receiving => setReceiver x .ready (countDrop x p)

/-- R2: the start delimiter. -/
def delimiterTaken (x : Port) (p : Part) : Part :=
  if (p.port x).receiver = .ready then setReceiver x .receiving p else p

/-- R3: another first byte after idle. -/
def badStart (x : Port) (byte : Byte) (p : Part) : Part :=
  if (p.port x).receiver = .ready ∧ byte ≠ Config.startDelimiter then setReceiver x .settling (countDrop x p) else p

/-- R3: a length byte above 64. -/
def badLength (x : Port) (length : Byte) (p : Part) : Part :=
  if (p.port x).receiver = .receiving ∧ 64 < length.toNat then setReceiver x .settling (countDrop x p) else p

/-- R2, R3: the pair is idle before the last CRC byte. -/
def truncated (x : Port) (p : Part) : Part :=
  if (p.port x).receiver = .receiving then setReceiver x .ready (countDrop x p) else p

/-- R2, R3, R6: a frame's reception is complete: it is checked, classified with the map as it stands, and handed over
in the same event or kept for its hand-over (log 5, DESIGN CHOICE). -/
def frameCompleted (x : Port) (f : Frame) (crc : Half) (handed : Bool) (p : Part) : Part :=
  let p1 := setReceiver x .ready p
  if !nodesOk f.dst f.src || decide (crc ≠ frameCrc f.dst f.src f.kind f.payload) then countDrop x p1
  else
    match classify p x f with
    | none => countDrop x p1
    | some c =>
      let p2 := p1.upPort x fun q => { q with received := q.received ++ [⟨f, c⟩] }
      if handed then handAll x p2 else p2

/-! ### A frame taken in one event (R6)

The rows that name one frame stand for its whole reception and its hand-over (log 5). They act in each of the receiver's
three states and leave it as it is (log 25, DESIGN CHOICE); FRAME_RECEIVED is the reception of R2, from RECEIVING to
READY. Their frame's reception is complete behind the hand-over of the frames its port has kept: it is classified by the
map and the plant node as those leave them, and a LINE RESET among them does not drop it (log 5, DESIGN CHOICE). -/

/-- A frame of port U for the station its destination is mapped to; forwarded when it is mapped to none. The receiver is
neither tested nor moved (log 25, DESIGN CHOICE); a kept LINE RESET does not drop the frame (log 5, DESIGN CHOICE). -/
def fromCell (f : Frame) (act : StationNo → Ev → Ev) (p : Part) : Part :=
  if !nodesOk f.dst f.src then countDrop .U p
  else
    match stationOf (handAll .U p) f.dst with
    | some st => event (act st) (handAll .U p)
    | none => event (forward .U f) (handAll .U p)

/-- A CUT DONE of port D: intercepted when its source is mapped. The receiver is neither tested nor moved (log 25, DESIGN
CHOICE). -/
def fromSaw (f : Frame) (act : StationNo → Ev → Ev) (p : Part) : Part :=
  if !nodesOk f.dst f.src then countDrop .D p
  else
    match stationOf (handAll .D p) f.src with
    | some st => event (act st) (handAll .D p)
    | none => event (forward .D f) (handAll .D p)

/-- An act-and-forward frame of a saw. The receiver is neither tested nor moved (log 25, DESIGN CHOICE). -/
def throughSaw (f : Frame) (act : StationNo → Ev → Ev) (p : Part) : Part :=
  if !nodesOk f.dst f.src then countDrop .D p
  else
    match stationOf (handAll .D p) f.src with
    | some st => event (fun e => forward .D f (act st e)) (handAll .D p)
    | none => event (forward .D f) (handAll .D p)

/-- A WATER SAMPLE: acted on when it comes from the plant node (R132). The receiver is neither tested nor moved (log 25,
DESIGN CHOICE). -/
def throughPlant (f : Frame) (act : Ev → Ev) (p : Part) : Part :=
  if !nodesOk f.dst f.src then countDrop .D p
  else if fromPlant (handAll .D p) f.src then
    event (fun e => forward .D f (reachesWbu f.src act e)) (handAll .D p)
  else event (forward .D f) (handAll .D p)

/-- R8: a MANAGE REQUEST that is not taken. The receiver is neither tested nor moved (log 25, DESIGN CHOICE). -/
def foreignTaken (x : Port) (dst src : Byte) (p : Part) : Part :=
  if !nodesOk dst src then countDrop x p
  else if foreignOk x dst src then event (raise .foreignManage none .none) (handAll x p)
  else p

/-! ### Transmission (R9, R11) -/

/-- R9: the transmitter begins the oldest frame. -/
def transmissionStarts (x : Port) (p : Part) : Part :=
  if (p.port x).sending || (p.port x).queue.isEmpty then p else p.upPort x fun q => { q with sending := true }

/-- R9, R11: a frame's last CRC byte is sent: its entry is freed and one waiting frame enters. -/
def frameIsSent (x : Port) (p : Part) : Part :=
  if (p.port x).sending then
    if p.inReset then popSent x p else event (fun e => admitOne x (e.map (popSent x))) p
  else p

/-- R11: the waiting frame of this kind that can enter next does so: at once when there is room, else as the frame
being sent leaves its entry (log 16, DESIGN CHOICE). -/
def waiterEnters (x : Port) (what : Waiter → Bool) (p : Part) : Part :=
  match (candidates (p.port x)).find? what with
  | none => p
  | some w =>
    if hasRoom (p.port x) then event (fun e => enter w (e.map (takeWaiter x w))) p
    else if (p.port x).sending then event (fun e => enter w (e.map fun q => takeWaiter x w (popSent x q))) p
    else p

/-- R11: any waiting frame that can enter next does so; with none waiting nothing can enter, and the state stays, also
while a frame is being sent (log 4, DEDUCED). -/
def someEnters (x : Port) (p : Part) : Part :=
  if (candidates (p.port x)).isEmpty then p
  else if hasRoom (p.port x) then event (admitOne x) p else frameIsSent x p

/-- The front of a station's frame list, while it waits, is of one of these kinds. -/
def frontIs (p : Part) (st : StationNo) (what : SawFrame → Bool) : Bool := p.cpl[st].frames.head?.any what

end Sys2Proof.Machine
end

