-- ==== Sys2Proof/Machine/Resets.lean ====
section
/-! DEFINITION. The resets by pin: RESETn asserted and released (R2, R18, R22, R40, R78, R98, R116, R118, R131, R148,
R164, R182, R193); the yard key (R125, R126); and the part's own timebase (00 section 6.3; log 2, DESIGN CHOICE). -/

namespace Sys2Proof.Machine

/-! ### RESETn -/

/-- R18: a port at a warm reset: the frame being sent stays, everything else is discarded uncounted. -/
def PortState.afterReset (q : PortState) : PortState :=
  ⟨.settling, 0, [], if q.sending then q.queue.take 1 else [], q.sending, []⟩

/-- R182: a job at a warm reset. -/
def Job.afterReset (j : Job) : Job :=
  { j with state := if j.state = .closing then .closed else j.state, outstanding := 0, pending := 0 }

/-- The part while RESETn is asserted, every block at its warm-reset values; no timer runs (log 15, DEDUCED). -/
def warmReset (p : Part) : Part :=
  { p with
    inReset := true
    portU := p.portU.afterReset
    portD := p.portD.afterReset
    mgu := ⟨[], none, .warm⟩
    stc := Vector.replicate 8 .initial
    oqu := Vector.replicate 8 .empty
    cpl := Vector.replicate 8 .empty
    stk := ⟨updAll p.stk.slabs fun r => r.map Slab.afterWarmReset, 0⟩
    lck := { p.lck with settle := .stopped }
    wbu := ⟨p.wbu.consts, 0, 0, .clear, .stale, .stopped, .low, .closed, p.wbu.allowance, 0, Vector.replicate 8 none, 7⟩
    psu := { p.psu with posts := Vector.replicate 8 .empty, freeze := .thawed, freezeTimer := .stopped }
    jau := { p.jau with jobs := updAll p.jau.jobs Job.afterReset }
    ntu := { p.ntu with entries := [], outstanding := false, timer := .stopped, number := 0 } }

/-- R98: a SAW STOP for a mapped station on leaving reset. -/
def stopMapped (e : Ev) (st : StationNo) : Ev := if e.p.map[st].mapped then placeSaw st .stop none [] e else e

/-- R98, R148: the frames queued on leaving reset. -/
def leaveReset (e : Ev) : Ev :=
  let e1 := allStations.foldl stopMapped e
  if e1.p.wbu.consts.plantNode = 0 then e1
  else offer (.valve false (toPlant e1.p.wbu.consts.plantNode false)) e1

/-- R2, R125, R193: RESETn is released. -/
def releaseReset (p : Part) : Part :=
  event leaveReset
    { p with
      inReset := false
      lck := { p.lck with key := p.yardkey, settle := .stopped }
      ntu := { p.ntu with timer := summaryTimer p.ntu } }

/-! ### The yard key (R125, R126) -/

/-- The pin YARDKEY moves; it is read at the next millisecond's sample (R125). -/
def keyMoved (level : Level) (p : Part) : Part := { p with yardkey := level }

/-- R125, R126: the change is counted: the key level takes the pin's, and a hard lock is cleared over an empty range. -/
def countKey (level : Level) (l : Lck) : Lck :=
  let l1 := { l with key := level, settle := .stopped }
  if l.hard then Lck.emptied { l1 with hard := false } else l1

/-- R125: the settle time has passed: a pin that still differs from the key level is a counted change; one that has
returned stops the timer and counts nothing. -/
def settleOver (level : Level) (l : Lck) : Lck := if level = l.key then { l with settle := .stopped } else countKey level l

/-- R125: the sample of one millisecond: the settle timer stops at the key level, starts at the first difference, and at
its expiry the change is counted. -/
def sampleKey (level : Level) (l : Lck) : Lck :=
  if level = l.key then { l with settle := .stopped }
  else if l.settle = .stopped then { l with settle := .running Config.settleTime }
  else if l.settle.isOut then countKey level l
  else l

/-- R125, R126: the settle timer's expiry. -/
def keyCounted (p : Part) : Part :=
  match p.lck.settle with
  | .running _ => p.upLck (settleOver p.yardkey)
  | .paused _ => p
  | .stopped => p

/-! ### One millisecond (log 2, DESIGN CHOICE) -/

/-- Every running timer counts one millisecond. -/
def countDown (p : Part) : Part :=
  { p with
    cpl := updAll p.cpl fun c => { c with overrun := c.overrun.tick, stop := c.stop.tick }
    lck := { p.lck with settle := p.lck.settle.tick }
    wbu := { p.wbu with sampleTimer := p.wbu.sampleTimer.tick }
    psu := { p.psu with posts := updAll p.psu.posts fun x => { x with timer := x.timer.tick },
                        freezeTimer := p.psu.freezeTimer.tick }
    ntu := { p.ntu with timer := p.ntu.timer.tick } }

/-- An expiry, when the timer is out as the millisecond reaches it. -/
def expireIf (out : Part → Bool) (f : Ev → Ev) (p : Part) : Part := if out p then event f p else p

/-- Each station in turn. -/
def eachStation (f : StationNo → Part → Part) (p : Part) : Part := allStations.foldl (fun q st => f st q) p

/-- The timers at 0 expire, and YARDKEY is sampled (R125). -/
def expireAll (p : Part) : Part :=
  let p1 := eachStation (fun st => expireIf (fun q => q.cpl[st].overrun.isOut) (overrunExpired st)) p
  let p2 := eachStation (fun st => expireIf (fun q => q.cpl[st].stop.isOut) (stopExpired st)) p1
  let p3 := eachStation (fun st => expireIf (fun q => q.psu.posts[st].timer.isOut)
    (fun e => e.map (coalesceExpired st))) p2
  let p4 := expireIf (fun q => q.wbu.sampleTimer.isOut) sampleExpired p3
  let p5 := expireIf (fun q => q.psu.freezeTimer.isOut) freezeExpired p4
  let p6 := expireIf (fun q => q.ntu.timer.isOut) summaryExpired p5
  p6.upLck (sampleKey p6.yardkey)

/-- One application of every drain in flight (R155: within 1 ms), from station 0 to 7: R155 gives the applications of
different stations no order (log 2, DESIGN CHOICE). -/
def drainAll (p : Part) : Part :=
  eachStation (fun st => expireIf (fun q => decide (0 < q.psu.posts[st].covered)) (drainOnce st)) p

/-- One millisecond with no command: received frames are handed over, those of port U before those of port D, which R7
gives no order (log 2, DESIGN CHOICE), drains go on, timers count and expire, and YARDKEY is sampled. -/
def millisecond (p : Part) : Part :=
  if p.inReset then p else expireAll (countDown (drainAll (handAll .D (handAll .U p))))

end Sys2Proof.Machine
end

