-- ==== Sys2Proof/Machine/LineCommands.lean ====
section
/-! DEFINITION. The meanings of the commands of the pins, the receivers, the transmitters and the waiting frames. -/

namespace Sys2Proof.Machine

/-- The outcome of every command: a next state. -/
abbrev Result := Host.Outcome State Fault Refusal

/-- A command acts on the part, but not while RESETn is asserted, when none of these events can occur (R18; log 4,
DEDUCED). -/
def live (s : State) (f : Part → Part) : Result :=
  .next (if s.part.inReset then s else { s with part := f s.part })

/-- POWER_UP: R18: every block takes its power-up values; LOCKEN is sampled (R118). -/
def execPowerUp (locken : Level) (yardkey : Level) (s : State) : Result :=
  .next { s with part := Part.powerUp locken yardkey }

/-- RESETN_ASSERT: R18: RESETn is asserted. -/
def execResetnAssert (s : State) : Result := live s warmReset

/-- RESETN_RELEASE: R18: RESETn is released. -/
def execResetnRelease (s : State) : Result :=
  .next (if s.part.inReset then { s with part := releaseReset s.part } else s)

/-- RECEIVE_PAIR_IDLE: R2. -/
def execReceivePairIdle (port : Port) (s : State) : Result := live s (pairIdle port)

/-- BAD_START_BYTE: R3. -/
def execBadStartByte (port : Port) (byte : Byte) (s : State) : Result := live s (badStart port byte)

/-- PAYLOAD_LENGTH_ABOVE_64: R3. -/
def execPayloadLengthAbove64 (port : Port) (length : Byte) (s : State) : Result := live s (badLength port length)

/-- TRUNCATED_FRAME: R2, R3. -/
def execTruncatedFrame (port : Port) (s : State) : Result := live s (truncated port)

/-- FRAME_RECEIVED: R2, R3, R6, R7: a frame completes reception. -/
def execFrameReceived (port : Port) (dst : Byte) (src : Byte) (kind : Byte) (payload : List Byte) (crc : Half) (handed : Bool) (s : State) : Result :=
  live s fun p =>
    if (p.port port).receiver = .receiving ∧ payloadOk payload then frameCompleted port ⟨dst, src, kind, payload⟩ crc handed p
    else p

/-- FOREIGN_MANAGE: R8; the payload is not read, nor its length tested against R3's 64 (log 26, DESIGN CHOICE). -/
def execForeignManage (port : Port) (dst : Byte) (src : Byte) (_payload : List Byte) (s : State) : Result :=
  live s (foreignTaken port dst src)

/-- FRAME_SENT: R9, R11, R18: a frame on the wire is completed in reset too. -/
def execFrameSent (port : Port) (s : State) : Result := .next { s with part := frameIsSent port s.part }

/-- ORIGINATED_FRAME_ENTERS: R11. -/
def execOriginatedFrameEnters (port : Port) (s : State) : Result := live s (someEnters port)

/-- PROGRAM_FRAME_ENTERS: R85. -/
def execProgramFrameEnters (station : StationNo) (s : State) : Result :=
  live s fun p =>
    if frontIs p station SawFrame.isProgram then waiterEnters .D (Waiter.isSawOf station) p else p

/-- SAW_STOP_ENTERS: R87. -/
def execSawStopEnters (station : StationNo) (s : State) : Result :=
  live s fun p =>
    if frontIs p station (fun f => decide (f.kind = .stop)) then waiterEnters .D (Waiter.isSawOf station) p else p

/-- MAKEUP_OPEN_ENTERS: R145. -/
def execMakeupOpenEnters (s : State) : Result := live s (waiterEnters .D (Waiter.isValve true))

/-- RECORD_HOLD_RECORD_ENTERS: R94. -/
def execRecordHoldRecordEnters (station : StationNo) (s : State) : Result :=
  live s (waiterEnters .U (Waiter.isHoldOf station))

/-- SPENT_SLOT_RECORD_ENTERS: R41, R57. -/
def execSpentSlotRecordEnters (station : StationNo) (slot : SlotNo) (s : State) : Result :=
  live s (waiterEnters .U (Waiter.isSpentOf station slot))

/-- ON_DECK_PLACE_RECORD_ENTERS: R59, R79. -/
def execOnDeckPlaceRecordEnters (station : StationNo) (s : State) : Result :=
  live s (waiterEnters .U (Waiter.isPlaceOf station))

/-- MANAGE_ANSWER_ENTERS: R12. -/
def execManageAnswerEnters (s : State) : Result :=
  live s (waiterEnters .U fun w => w.isManageAnswer && !w.isFirstSegment)

/-- JOB_READ_SEGMENT_ENTERS: R204. -/
def execJobReadSegmentEnters (s : State) : Result := live s (waiterEnters .U Waiter.isFirstSegment)

/-- ATTENTION_ENTERS: R188, R194. -/
def execAttentionEnters (s : State) : Result := live s (waiterEnters .U Waiter.isAttention)

/-- START_DELIMITER_RECEIVED: R2. -/
def execStartDelimiterReceived (port : Port) (s : State) : Result := live s (delimiterTaken port)

/-- TRANSMISSION_START: R9. -/
def execTransmissionStart (port : Port) (s : State) : Result := live s (transmissionStarts port)

end Sys2Proof.Machine
end

