-- ==== Sys2Proof/Machine/FloorCommands.lean ====
section
/-! DEFINITION. The meanings of the commands that are frames of the cell computer, the saws and the plant, and of the
part's own events. -/

namespace Sys2Proof.Machine

/-- CUT_ORDER: R43 to R47. -/
def execCutOrder (dst : Byte) (src : Byte) (order : OrderFields) (s : State) : Result :=
  live s (fromCell ⟨dst, src, 0x21, encodeOrder order⟩ fun st => takeOrder st order)

/-- HOLD: R35, R36. -/
def execHold (dst : Byte) (src : Byte) (s : State) : Result :=
  live s (fromCell ⟨dst, src, 0x22, [1]⟩ fun st => stationCommand st 1)

/-- RESUME: R35, R37. -/
def execResume (dst : Byte) (src : Byte) (s : State) : Result :=
  live s (fromCell ⟨dst, src, 0x22, [2]⟩ fun st => stationCommand st 2)

/-- ABORT: R35, R38. -/
def execAbort (dst : Byte) (src : Byte) (s : State) : Result :=
  live s (fromCell ⟨dst, src, 0x22, [3]⟩ fun st => stationCommand st 3)

/-- FLUSH: R35, R59. -/
def execFlush (dst : Byte) (src : Byte) (s : State) : Result :=
  live s (fromCell ⟨dst, src, 0x22, [4]⟩ fun st => stationCommand st 4)

/-- UNKNOWN_STATION_COMMAND: R35. A code 1 to 4, which R35 names, is carried out as that command (log 26,
DESIGN CHOICE). -/
def execUnknownStationCommand (dst : Byte) (src : Byte) (code : Byte) (s : State) : Result :=
  live s (fromCell ⟨dst, src, 0x22, [code]⟩ fun st => stationCommand st code)

/-- PANEL_CLAIM: R31. -/
def execPanelClaim (dst : Byte) (src : Byte) (s : State) : Result :=
  live s (throughSaw ⟨dst, src, 0x64, []⟩ fun st => panelClaimed st)

/-- PANEL_RELEASE: R32. -/
def execPanelRelease (dst : Byte) (src : Byte) (s : State) : Result :=
  live s (throughSaw ⟨dst, src, 0x65, []⟩ fun st => panelReleased st)

/-- PANEL_STOP: R33. -/
def execPanelStop (dst : Byte) (src : Byte) (s : State) : Result :=
  live s (throughSaw ⟨dst, src, 0x66, []⟩ fun st => addHold st .panel)

/-- PANEL_RESUME: R33. -/
def execPanelResume (dst : Byte) (src : Byte) (s : State) : Result :=
  live s (throughSaw ⟨dst, src, 0x67, []⟩ fun st => removeHold st .panel)

/-- CUT_PASS: R90. -/
def execCutPass (dst : Byte) (src : Byte) (ticket : Byte) (pass : Byte) (s : State) : Result :=
  live s (throughSaw ⟨dst, src, 0x62, [ticket, pass]⟩ fun st e => e.map (passReported st ticket pass))

/-- CUT_DONE: R90, R91, R93, R95. -/
def execCutDone (dst : Byte) (src : Byte) (ticket : Byte) (outcome : Byte) (run : Word) (s : State) : Result :=
  live s (fromSaw ⟨dst, src, 0x61, encodeCutDone ticket outcome run⟩ fun st => doneReported st ticket outcome run.toNat)

/-- USAGE: R92, R141, R153. -/
def execUsage (dst : Byte) (src : Byte) (water : Half) (energy : Half) (run : Half) (s : State) : Result :=
  live s (throughSaw ⟨dst, src, 0x63, encodeUsage water energy run⟩ fun st =>
    takeUsage st water.toNat energy.toNat run.toNat)

/-- DRAIN_APPLICATION: R155. -/
def execDrainApplication (station : StationNo) (s : State) : Result := live s (event (drainOnce station))

/-- WATER_SAMPLE: R132. -/
def execWaterSample (dst : Byte) (src : Byte) (level : Word) (turbidity : Half) (makeup : Word) (s : State) : Result :=
  live s (throughPlant ⟨dst, src, 0x71, encodeSample level turbidity makeup⟩
    (takeSample level.toNat turbidity.toNat makeup.toNat))

/-- OVERRUN_EXPIRY: R86. -/
def execOverrunExpiry (station : StationNo) (s : State) : Result := live s (event (overrunExpired station))

/-- STOP_TIMEOUT: R88. -/
def execStopTimeout (station : StationNo) (s : State) : Result := live s (event (stopExpired station))

/-- SAMPLE_TIMEOUT: R135. -/
def execSampleTimeout (s : State) : Result := live s (event sampleExpired)

/-- COALESCING_TIMER_EXPIRY: R157. -/
def execCoalescingTimerExpiry (station : StationNo) (s : State) : Result :=
  live s (event fun e => e.map (coalesceExpired station))

/-- FREEZE_EXPIRY: R163. -/
def execFreezeExpiry (s : State) : Result := live s (event freezeExpired)

/-- SUMMARY_TIMER_EXPIRY: R191. -/
def execSummaryTimerExpiry (s : State) : Result := live s (event summaryExpired)

/-- YARDKEY_CHANGE: R125: the pin moves, in reset too; the next millisecond's sample starts or stops the settle timer
(log 2, DESIGN CHOICE). -/
def execYardkeyChange (level : Level) (s : State) : Result := .next { s with part := keyMoved level s.part }

/-- YARDKEY_SETTLE_EXPIRY: R125, R126. -/
def execYardkeySettleExpiry (s : State) : Result := live s keyCounted

end Sys2Proof.Machine
end

