-- ==== Sys2Proof/Machine/ManageCommands.lean ====
section
/-! DEFINITION. The meanings of the management commands: each is a MANAGE REQUEST handed to MGU (R12). -/

namespace Sys2Proof.Machine

/-- A MANAGE REQUEST from node 0 to node 1 is handed to MGU, behind the frames received before it (R7, R12). Port U's
receiver is neither tested nor moved (log 25, DESIGN CHOICE). -/
def request (r : Request) (s : State) : Result := live s fun p => event (handRequest r) (handAll .U p)

/-- MANAGE_REQUEST_RECEIVED: R12, R13: a MANAGE REQUEST is handed to MGU. The payload's length is not tested: one above
64, which no frame carries (R3), is carried out like any other (log 26, DESIGN CHOICE). -/
def execManageRequestReceived (payload : List Byte) (s : State) : Result := request (decodeRequest payload) s

/-- MALFORMED_REQUEST: R14: a request that is answered BAD_VALUE. The payload's length is not tested against R3's 64 (log
26, DESIGN CHOICE). -/
def execMalformedRequest (payload : List Byte) (s : State) : Result :=
  if (decodeRequest payload).body = .malformed then request (decodeRequest payload) s else .next s

/-- IDENTIFY: R16. -/
def execIdentify (tag : Byte) (s : State) : Result := request (requestOf tag .identify) s

/-- LINE_RESET: R17. -/
def execLineReset (tag : Byte) (s : State) : Result := request (requestOf tag .lineReset) s

/-- LINE_RESET_COMPLETE: R194, R17: the line reset in progress is examined for completion. -/
def execLineResetComplete (s : State) : Result := live s (event id)

/-- MAP_READ: R20. -/
def execMapRead (tag : Byte) (station : Byte) (s : State) : Result := request (requestOf tag (.mapRead station)) s

/-- MAP_WRITE: R21. -/
def execMapWrite (tag : Byte) (station : Byte) (node : Byte) (cls : Byte) (enabled : Byte) (s : State) : Result :=
  request (requestOf tag (.mapWrite station node cls enabled)) s

/-- RELEASE_STATION: R23. -/
def execReleaseStation (tag : Byte) (station : Byte) (s : State) : Result :=
  request (requestOf tag (.releaseStation station)) s

/-- SERVICE_STATION: R24. -/
def execServiceStation (tag : Byte) (station : Byte) (s : State) : Result :=
  request (requestOf tag (.serviceStation station)) s

/-- CLASS_READ: R64. -/
def execClassRead (tag : Byte) (cls : Byte) (s : State) : Result := request (requestOf tag (.classRead cls)) s

/-- CLASS_WRITE: R63. -/
def execClassWrite (tag : Byte) (cls : Byte) (entry : ClassFields) (s : State) : Result :=
  request (requestOf tag (.classWrite cls entry)) s

/-- PIPE_READ: R89. -/
def execPipeRead (tag : Byte) (s : State) : Result := request (requestOf tag .pipeRead) s

/-- PIPE_WRITE: R89. -/
def execPipeWrite (tag : Byte) (percent : Half) (grace : Half) (stopTimeout : Byte) (s : State) : Result :=
  request (requestOf tag (.pipeWrite percent grace stopTimeout)) s

/-- SLAB_WRITE: R105, R106. -/
def execSlabWrite (tag : Byte) (fields : SlabFields) (s : State) : Result :=
  request (requestOf tag (.slabWrite fields)) s

/-- SLAB_REMOVE: R108. -/
def execSlabRemove (tag : Byte) (number : Half) (s : State) : Result := request (requestOf tag (.slabRemove number)) s

/-- SLAB_READ: R109. -/
def execSlabRead (tag : Byte) (number : Half) (s : State) : Result := request (requestOf tag (.slabRead number)) s

/-- SLAB_SCAN: R110. -/
def execSlabScan (tag : Byte) (start : Half) (s : State) : Result := request (requestOf tag (.slabScan start)) s

/-- STOCK_COUNT: R111. -/
def execStockCount (tag : Byte) (s : State) : Result := request (requestOf tag .stockCount) s

/-- LOCK_RANGE: R121. -/
def execLockRange (tag : Byte) (low : Half) (high : Half) (invert : Byte) (s : State) : Result :=
  request (requestOf tag (.lockRange low high invert)) s

/-- LOCK_ALL: R122. -/
def execLockAll (tag : Byte) (s : State) : Result := request (requestOf tag .lockAll) s

/-- LOCK_HARD: R123. -/
def execLockHard (tag : Byte) (s : State) : Result := request (requestOf tag .lockHard) s

/-- LOCK_QUERY: R124. -/
def execLockQuery (tag : Byte) (s : State) : Result := request (requestOf tag .lockQuery) s

/-- WATER_WRITE: R129. -/
def execWaterWrite (tag : Byte) (fields : WaterFields) (s : State) : Result :=
  request (requestOf tag (.waterWrite fields)) s

/-- WATER_READ: R130. -/
def execWaterRead (tag : Byte) (s : State) : Result := request (requestOf tag .waterRead) s

/-- WATER_STATE: R147. -/
def execWaterState (tag : Byte) (s : State) : Result := request (requestOf tag .waterState) s

/-- NEW_DAY: R146. -/
def execNewDay (tag : Byte) (s : State) : Result := request (requestOf tag .newDay) s

/-- POSTING_WRITE: R159. -/
def execPostingWrite (tag : Byte) (period : Byte) (limit : Half) (s : State) : Result :=
  request (requestOf tag (.postingWrite period limit)) s

/-- POSTING_READ: R159. -/
def execPostingRead (tag : Byte) (s : State) : Result := request (requestOf tag .postingRead) s

/-- AUDIT_FREEZE: R160. -/
def execAuditFreeze (tag : Byte) (s : State) : Result := request (requestOf tag .auditFreeze) s

/-- FREEZE_TAKES_EFFECT: R160: the AUDIT FREEZE in PENDING is examined for taking effect. -/
def execFreezeTakesEffect (s : State) : Result := live s (event id)

/-- AUDIT_THAW: R162. -/
def execAuditThaw (tag : Byte) (s : State) : Result := request (requestOf tag .auditThaw) s

/-- JOB_OPEN: R173. -/
def execJobOpen (tag : Byte) (job : Byte) (reference : Word) (s : State) : Result :=
  request (requestOf tag (.jobOpen job reference)) s

/-- JOB_CLOSE: R174. -/
def execJobClose (tag : Byte) (job : Byte) (s : State) : Result := request (requestOf tag (.jobClose job)) s

/-- JOB_DISCARD: R175. -/
def execJobDiscard (tag : Byte) (job : Byte) (s : State) : Result := request (requestOf tag (.jobDiscard job)) s

/-- JOB_READ: R176, R204. -/
def execJobRead (tag : Byte) (job : Byte) (s : State) : Result := request (requestOf tag (.jobRead job)) s

/-- RATES_WRITE: R179. -/
def execRatesWrite (tag : Byte) (water : Word) (run : Word) (energy : Half) (s : State) : Result :=
  request (requestOf tag (.ratesWrite water run energy)) s

/-- RATES_READ: R179. -/
def execRatesRead (tag : Byte) (s : State) : Result := request (requestOf tag .ratesRead) s

/-- NOTICE_READ: R190. -/
def execNoticeRead (tag : Byte) (s : State) : Result := request (requestOf tag .noticeRead) s

/-- ACK_ATTENTION: R189. -/
def execAckAttention (tag : Byte) (s : State) : Result := request (requestOf tag .ackAttention) s

/-- SUMMARY_WRITE: R191. -/
def execSummaryWrite (tag : Byte) (period : Byte) (s : State) : Result :=
  request (requestOf tag (.summaryWrite period)) s

/-- SUMMARY_READ: R191. -/
def execSummaryRead (tag : Byte) (s : State) : Result := request (requestOf tag .summaryRead) s

end Sys2Proof.Machine
end

