-- ==== Sys2Proof/Machine/Dispatch.lean ====
section
/-! DEFINITION. exec: one arm per command. -/

namespace Sys2Proof.Machine

def exec (i : Instr) (s : State) : Host.Outcome State Fault Refusal :=
  match i with
  | .powerUp locken yardkey => Sys2Proof.Machine.execPowerUp locken yardkey s
  | .resetnAssert => Sys2Proof.Machine.execResetnAssert s
  | .resetnRelease => Sys2Proof.Machine.execResetnRelease s
  | .receivePairIdle port => Sys2Proof.Machine.execReceivePairIdle port s
  | .badStartByte port byte => Sys2Proof.Machine.execBadStartByte port byte s
  | .payloadLengthAbove64 port length => Sys2Proof.Machine.execPayloadLengthAbove64 port length s
  | .truncatedFrame port => Sys2Proof.Machine.execTruncatedFrame port s
  | .frameReceived port dst src kind payload crc handed => Sys2Proof.Machine.execFrameReceived port dst src kind payload crc handed s
  | .foreignManage port dst src payload => Sys2Proof.Machine.execForeignManage port dst src payload s
  | .manageRequestReceived payload => Sys2Proof.Machine.execManageRequestReceived payload s
  | .malformedRequest payload => Sys2Proof.Machine.execMalformedRequest payload s
  | .identify tag => Sys2Proof.Machine.execIdentify tag s
  | .lineReset tag => Sys2Proof.Machine.execLineReset tag s
  | .lineResetComplete => Sys2Proof.Machine.execLineResetComplete s
  | .mapRead tag station => Sys2Proof.Machine.execMapRead tag station s
  | .mapWrite tag station node cls enabled => Sys2Proof.Machine.execMapWrite tag station node cls enabled s
  | .releaseStation tag station => Sys2Proof.Machine.execReleaseStation tag station s
  | .serviceStation tag station => Sys2Proof.Machine.execServiceStation tag station s
  | .classRead tag cls => Sys2Proof.Machine.execClassRead tag cls s
  | .classWrite tag cls entry => Sys2Proof.Machine.execClassWrite tag cls entry s
  | .pipeRead tag => Sys2Proof.Machine.execPipeRead tag s
  | .pipeWrite tag percent grace stopTimeout => Sys2Proof.Machine.execPipeWrite tag percent grace stopTimeout s
  | .slabWrite tag fields => Sys2Proof.Machine.execSlabWrite tag fields s
  | .slabRemove tag number => Sys2Proof.Machine.execSlabRemove tag number s
  | .slabRead tag number => Sys2Proof.Machine.execSlabRead tag number s
  | .slabScan tag start => Sys2Proof.Machine.execSlabScan tag start s
  | .stockCount tag => Sys2Proof.Machine.execStockCount tag s
  | .lockRange tag low high invert => Sys2Proof.Machine.execLockRange tag low high invert s
  | .lockAll tag => Sys2Proof.Machine.execLockAll tag s
  | .lockHard tag => Sys2Proof.Machine.execLockHard tag s
  | .lockQuery tag => Sys2Proof.Machine.execLockQuery tag s
  | .waterWrite tag fields => Sys2Proof.Machine.execWaterWrite tag fields s
  | .waterRead tag => Sys2Proof.Machine.execWaterRead tag s
  | .waterState tag => Sys2Proof.Machine.execWaterState tag s
  | .newDay tag => Sys2Proof.Machine.execNewDay tag s
  | .postingWrite tag period limit => Sys2Proof.Machine.execPostingWrite tag period limit s
  | .postingRead tag => Sys2Proof.Machine.execPostingRead tag s
  | .auditFreeze tag => Sys2Proof.Machine.execAuditFreeze tag s
  | .freezeTakesEffect => Sys2Proof.Machine.execFreezeTakesEffect s
  | .auditThaw tag => Sys2Proof.Machine.execAuditThaw tag s
  | .jobOpen tag job reference => Sys2Proof.Machine.execJobOpen tag job reference s
  | .jobClose tag job => Sys2Proof.Machine.execJobClose tag job s
  | .jobDiscard tag job => Sys2Proof.Machine.execJobDiscard tag job s
  | .jobRead tag job => Sys2Proof.Machine.execJobRead tag job s
  | .ratesWrite tag water run energy => Sys2Proof.Machine.execRatesWrite tag water run energy s
  | .ratesRead tag => Sys2Proof.Machine.execRatesRead tag s
  | .noticeRead tag => Sys2Proof.Machine.execNoticeRead tag s
  | .ackAttention tag => Sys2Proof.Machine.execAckAttention tag s
  | .summaryWrite tag period => Sys2Proof.Machine.execSummaryWrite tag period s
  | .summaryRead tag => Sys2Proof.Machine.execSummaryRead tag s
  | .cutOrder dst src order => Sys2Proof.Machine.execCutOrder dst src order s
  | .hold dst src => Sys2Proof.Machine.execHold dst src s
  | .resume dst src => Sys2Proof.Machine.execResume dst src s
  | .abort dst src => Sys2Proof.Machine.execAbort dst src s
  | .flush dst src => Sys2Proof.Machine.execFlush dst src s
  | .unknownStationCommand dst src code => Sys2Proof.Machine.execUnknownStationCommand dst src code s
  | .panelClaim dst src => Sys2Proof.Machine.execPanelClaim dst src s
  | .panelRelease dst src => Sys2Proof.Machine.execPanelRelease dst src s
  | .panelStop dst src => Sys2Proof.Machine.execPanelStop dst src s
  | .panelResume dst src => Sys2Proof.Machine.execPanelResume dst src s
  | .cutPass dst src ticket pass => Sys2Proof.Machine.execCutPass dst src ticket pass s
  | .cutDone dst src ticket outcome run => Sys2Proof.Machine.execCutDone dst src ticket outcome run s
  | .usage dst src water energy run => Sys2Proof.Machine.execUsage dst src water energy run s
  | .drainApplication station => Sys2Proof.Machine.execDrainApplication station s
  | .waterSample dst src level turbidity makeup => Sys2Proof.Machine.execWaterSample dst src level turbidity makeup s
  | .overrunExpiry station => Sys2Proof.Machine.execOverrunExpiry station s
  | .stopTimeout station => Sys2Proof.Machine.execStopTimeout station s
  | .sampleTimeout => Sys2Proof.Machine.execSampleTimeout s
  | .coalescingTimerExpiry station => Sys2Proof.Machine.execCoalescingTimerExpiry station s
  | .freezeExpiry => Sys2Proof.Machine.execFreezeExpiry s
  | .summaryTimerExpiry => Sys2Proof.Machine.execSummaryTimerExpiry s
  | .yardkeyChange level => Sys2Proof.Machine.execYardkeyChange level s
  | .yardkeySettleExpiry => Sys2Proof.Machine.execYardkeySettleExpiry s
  | .frameSent port => Sys2Proof.Machine.execFrameSent port s
  | .originatedFrameEnters port => Sys2Proof.Machine.execOriginatedFrameEnters port s
  | .programFrameEnters station => Sys2Proof.Machine.execProgramFrameEnters station s
  | .sawStopEnters station => Sys2Proof.Machine.execSawStopEnters station s
  | .makeupOpenEnters => Sys2Proof.Machine.execMakeupOpenEnters s
  | .recordHoldRecordEnters station => Sys2Proof.Machine.execRecordHoldRecordEnters station s
  | .spentSlotRecordEnters station slot => Sys2Proof.Machine.execSpentSlotRecordEnters station slot s
  | .onDeckPlaceRecordEnters station => Sys2Proof.Machine.execOnDeckPlaceRecordEnters station s
  | .manageAnswerEnters => Sys2Proof.Machine.execManageAnswerEnters s
  | .jobReadSegmentEnters => Sys2Proof.Machine.execJobReadSegmentEnters s
  | .attentionEnters => Sys2Proof.Machine.execAttentionEnters s
  | .startDelimiterReceived port => Sys2Proof.Machine.execStartDelimiterReceived port s
  | .transmissionStart port => Sys2Proof.Machine.execTransmissionStart port s

end Sys2Proof.Machine
end

