-- ==== Sys2Proof/Safety.lean ====
section
/-! DEFINITION. The terms that claims about the part are stated in: a part with nothing under way, a station at rest,
frames sent, the tables that only management writes, resets and the yard key change, and the invariants of the
tables, the valve and the house job. -/

namespace Sys2Proof.Machine

/-- Nothing is under way: RESETn is released, no request is queued or in progress, every received frame has been handed
over, and no frame waits in a block. -/
abbrev Quiet (p : Part) : Prop :=
  p.inReset = false ∧ p.mgu.queue = [] ∧ p.mgu.inProgress = none ∧ p.portU.received = [] ∧ p.portD.received = []
    ∧ p.portU.waiting = [] ∧ p.portD.waiting = []

/-- `n` more originated frames find room in a port's queue. -/
abbrev RoomU (n : Nat) (p : Part) : Prop := p.portU.queue.length + n ≤ 16

abbrev RoomD (n : Nat) (p : Part) : Prop := p.portD.queue.length + n ≤ 16

/-- A forwarded frame finds room toward the cell computer (R10), with `n` frames before it. -/
abbrev ForwardU (n : Nat) (p : Part) : Prop := p.portU.queue.length + n < 12

/-- Frames have entered port U's queue. -/
def Part.sentU (p : Part) (fs : List Frame) : Part := { p with portU := { p.portU with queue := p.portU.queue ++ fs } }

/-- Frames have entered port D's queue. -/
def Part.sentD (p : Part) (fs : List Frame) : Part := { p with portD := { p.portD with queue := p.portD.queue ++ fs } }

/-- The state with this part and the same commands waiting. -/
abbrev State.withPart (s : State) (p : Part) : State := { s with part := p }

/-- The state after a MANAGE ANSWER has entered port U's queue behind a part `p`. -/
def State.answer (s : State) (p : Part) (code tag : Byte) (status : Status) (results : List Byte) : State :=
  { s with part := p.sentU [answerFrame code tag status results] }

/-- Every frame that waits in a block began to wait in an earlier event. -/
abbrev Grouped (p : Part) : Prop :=
  (∀ w ∈ p.portU.waiting, w.group ≠ none) ∧ ∀ w ∈ p.portD.waiting, w.group ≠ none

/-- A timer that the next millisecond does not bring to its end. -/
abbrev Timer.NotDue (t : Timer) : Prop := t ≠ .running 0 ∧ t ≠ .running 1

/-- A station without orders: an empty ring and chain list, empty slots and frame list. -/
abbrev AtRest (p : Part) (st : StationNo) : Prop :=
  p.oqu[st].producer = p.oqu[st].consumer ∧ p.oqu[st].chains = [] ∧ p.cpl[st].onDeck = none ∧ p.cpl[st].active = none
    ∧ p.cpl[st].frames = []

/-- Nothing for a station to claim and nothing for its on-deck slot: no UNCLAIMED chain, no order on-deck, and a head
slot that is neither ADMITTED nor spent with its record entered. -/
abbrev NoneDue (p : Part) (st : StationNo) : Prop :=
  p.oqu[st].unclaimedChain = none ∧ p.cpl[st].onDeck = none ∧ p.oqu[st].headAdmitted = none
    ∧ p.oqu[st].headSpent = false

/-- No station is on WBU's wait list. -/
abbrev NoneWaits (p : Part) : Prop := ∀ st : StationNo, p.wbu.waitList[st] = none

/-- R137, R138: no station on the wait list has a need that a grant scan would grant. -/
abbrev NoneFits (w : Wbu) : Prop :=
  ∀ st : StationNo, ∀ need ∈ w.waitList[st],
    ¬(w.freshness = .live ∧ w.quality = .clear ∧ w.band ≠ .low ∧ need ≤ w.level - w.consts.lowMark - w.reserved)

/-- The request in progress stays in progress as an event ends: its answer waits (R12), its AUDIT FREEZE waits for a
drain in flight (R160), or its LINE RESET has parts that are not complete (R17) or an ATTENTION that waits (R194). -/
def StaysInProgress (p : Part) (phase : Phase) : Prop :=
  match phase with
  | .answering => True
  | .freezing => ∃ st : StationNo, 0 < p.psu.posts[st].covered
  | .resetting draining => draining ≠ [] ∨ (∃ st : StationNo, p.stc[st].state ≠ .service)
      ∨ ∃ st : StationNo, p.portU.anyWaits (Waiter.isHoldOf st) = true
  | .attending => p.portU.anyWaits Waiter.isAttention = true

/-- The tables and settings that only table writes, the yard key and resets change. -/
structure Settings where
  inReset : Bool
  yardkey : Level
  map : Vector MapEntry 8
  classes : Vector SawClass 4
  pipe : PipeConsts
  lck : Lck
  consts : WaterConsts
  period : Nat
  limit : Nat
  waterRate : Nat
  runRate : Nat
  energyRate : Nat
  summaryPeriod : Nat
  cause : StartCause
  deriving DecidableEq, Repr

def Part.settings (p : Part) : Settings :=
  ⟨p.inReset, p.yardkey, p.map, p.classes, p.pipe, p.lck, p.wbu.consts, p.psu.period, p.psu.limit, p.jau.waterRate,
    p.jau.runRate, p.jau.energyRate, p.ntu.period, p.mgu.cause⟩

/-- R62: a class entry's fields are in their ranges. -/
def SawClass.InRange (c : SawClass) : Prop :=
  (1 ≤ c.kerf ∧ c.kerf ≤ 10) ∧ (5 ≤ c.depth ∧ c.depth ≤ 40) ∧ (1 ≤ c.flow ∧ c.flow ≤ 2000)
    ∧ (∀ m : Material, 1 ≤ c.feed[m] ∧ c.feed[m] ≤ 200) ∧ (100 ≤ c.lmin ∧ c.lmin ≤ 2000)
    ∧ (50 ≤ c.wmin ∧ c.wmin ≤ 1000)

/-- R128: the water constants are in their ranges, and their marks are in order unless they are the power-up values. -/
def WaterConsts.InRange (c : WaterConsts) : Prop :=
  c = .initial ∨
    (c.lowMark < c.makeupOn ∧ c.makeupOn < c.makeupOff ∧ c.makeupOff ≤ c.capacity ∧ c.capacity ≤ 4000000
      ∧ c.hysteresis ≤ 200000 ∧ (1 ≤ c.turbidityLimit ∧ c.turbidityLimit ≤ 1000)
      ∧ (1 ≤ c.sampleTimeout ∧ c.sampleTimeout ≤ 60) ∧ c.dailyAllowance ≤ 4000000
      ∧ (c.plantNode = 0 ∨ (2 ≤ c.plantNode ∧ c.plantNode ≤ 62)))

/-- Section 2.1, R21: node addresses are legal, and no two mapped entries share one. -/
def MapLegal (m : Vector MapEntry 8) : Prop :=
  (∀ st : StationNo, m[st].node = 0 ∨ (2 ≤ m[st].node ∧ m[st].node ≤ 62))
    ∧ ∀ a b : StationNo, m[a].mapped = true → m[b].mapped = true → m[a].node = m[b].node → a = b

/-- R118, R121, R123: the lock's bounds are record numbers, and while disabled is set the range is empty, invert clear
and hard clear. -/
def LockLegal (l : Lck) : Prop :=
  l.low ≤ 511 ∧ l.high ≤ 511 ∧ (l.disabled = true → l.low = 1 ∧ l.high = 0 ∧ l.invert = false ∧ l.hard = false)

/-- Every table holds values of its ranges. -/
def SettingsInRange (t : Settings) : Prop :=
  MapLegal t.map ∧ (∀ c : ClassNo, t.classes[c].InRange)
    ∧ ((110 ≤ t.pipe.percent ∧ t.pipe.percent ≤ 400) ∧ t.pipe.grace ≤ 600
        ∧ (1 ≤ t.pipe.stopTimeout ∧ t.pipe.stopTimeout ≤ 60))
    ∧ LockLegal t.lck ∧ t.consts.InRange ∧ (1 ≤ t.period ∧ t.period ≤ 255) ∧ (1 ≤ t.limit ∧ t.limit ≤ 600)
    ∧ t.waterRate ≤ 100000 ∧ t.runRate ≤ 100000 ∧ t.energyRate ≤ 10000 ∧ t.summaryPeriod ≤ 100

/-- R144: whenever the allowance is zero or freshness is STALE the valve is CLOSED, and no MAKEUP OPEN waits to open
it. -/
def ValveShut (p : Part) : Prop :=
  (p.wbu.allowance = 0 ∨ p.wbu.freshness = .stale) →
    p.wbu.valve = .closed ∧ p.portD.waits (Waiter.isValve true) = 0

/-- R145, R144: at most one MAKEUP OPEN waits, at port D only and never while the valve is OPEN; the valve stands as
R144 says; and with plant node 0 freshness is not LIVE. -/
def ValveLegal (p : Part) : Prop :=
  p.portU.waits (Waiter.isValve true) = 0 ∧ p.portD.waits (Waiter.isValve true) ≤ 1
    ∧ (p.wbu.valve = .opened → p.portD.waits (Waiter.isValve true) = 0) ∧ ValveShut p
    ∧ (p.wbu.consts.plantNode = 0 → p.wbu.freshness = .stale)

/-- R181: job 0, the house job, is OPEN. -/
def HouseOpen (p : Part) : Prop := p.jau.jobs[0].state = .opened

end Sys2Proof.Machine
end

