-- ==== Sys2Proof/Certificates/Slice0/Obligations.lean ====
section
/-! DEFINITION. The statements for the provers, listed in OBLIGATIONS.json. Each docstring names the rules of spec/ it
rests on; "log <n>" marks a choice of the model. Log 25 stands behind every statement about a row that names one frame:
such a row neither tests nor moves its port's receiver. -/

open Sys2Proof Sys2Proof.Machine

/-! ### Steps and frames -/

/-- A step runs the command at the front of the queue on the rest of the queue. -/
def Obligations.StepRunsTheFrontCommand : Prop :=
  ∀ (c : Instr) (rest : List Instr) (s : State), s.pending = c :: rest → step s = exec c { s with pending := rest }

/-- No command stops the part, and none touches the queue of commands: the part's events have outcomes only.
Log 4: an event that cannot occur leaves the state as it is. -/
def Obligations.EveryCommandIsCarriedOut : Prop :=
  ∀ (c : Instr) (s : State), ∃ t, exec c s = .next t ∧ t.pending = s.pending

/-- Log 2: with no command waiting a step is one millisecond. In a quiet part with no drain in flight and no timer but
the settle timer at its last millisecond, every running timer has one millisecond less, a paused or stopped one stands,
and YARDKEY is sampled: at the key level the settle timer stops, at a first difference it starts at 20 ms, and a
difference that has lasted is counted, which clears a hard lock over an empty range (R125, R126). Nothing else changes. -/
def Obligations.IdleStepCountsOneMillisecond : Prop :=
  ∀ s : State, s.pending = [] → Quiet s.part →
    (∀ st : StationNo, s.part.psu.posts[st].covered = 0 ∧ s.part.cpl[st].overrun.NotDue ∧ s.part.cpl[st].stop.NotDue
      ∧ s.part.psu.posts[st].timer.NotDue) →
    s.part.wbu.sampleTimer.NotDue → s.part.psu.freezeTimer.NotDue → s.part.ntu.timer.NotDue →
    ∃ t, step s = .next t
      ∧ t.part.lck =
          (if s.part.yardkey = s.part.lck.key then { s.part.lck with settle := .stopped }
          else match s.part.lck.settle with
            | .stopped => { s.part.lck with settle := .running 20 }
            | .paused _ => s.part.lck
            | .running n =>
              if 1 < n then { s.part.lck with settle := .running (n - 1) }
              else if s.part.lck.hard then
                { s.part.lck with
                  low := 1, high := 0, invert := false, hard := false, key := s.part.yardkey, settle := .stopped }
              else { s.part.lck with key := s.part.yardkey, settle := .stopped })
      ∧ (∀ st : StationNo, t.part.cpl[st] =
          { s.part.cpl[st] with
            overrun := match s.part.cpl[st].overrun with | .running n => .running (n - 1) | x => x
            stop := match s.part.cpl[st].stop with | .running n => .running (n - 1) | x => x })
      ∧ (∀ st : StationNo, t.part.psu.posts[st] =
          { s.part.psu.posts[st] with
            timer := match s.part.psu.posts[st].timer with | .running n => .running (n - 1) | x => x })
      ∧ t = { s with part := { s.part with
            cpl := t.part.cpl
            lck := t.part.lck
            wbu := { s.part.wbu with sampleTimer := s.part.wbu.sampleTimer.tick }
            psu := { s.part.psu with posts := t.part.psu.posts, freezeTimer := s.part.psu.freezeTimer.tick }
            ntu := { s.part.ntu with timer := s.part.ntu.timer.tick } } }

/-- R14, R203: the payload that each request of the table is sent as names that request again, with its tag and every
argument, and fits a frame. -/
def Obligations.RequestsSurviveTheLine : Prop :=
  ∀ (tag : Byte) (b : ReqBody), b ≠ .malformed →
    decodeRequest (encodeRequest tag b) = ⟨bodyCode b, tag, b⟩ ∧ (encodeRequest tag b).length ≤ 64

/-- R197 to R199: the payloads of CUT ORDER, CUT DONE, USAGE and WATER SAMPLE carry every field. -/
def Obligations.FramePayloadsSurviveTheLine : Prop :=
  (∀ o : OrderFields, decodeOrder (encodeOrder o) = some o ∧ (encodeOrder o).length = 12)
  ∧ (∀ (ticket outcome : Byte) (run : Word), decodeCutDone (encodeCutDone ticket outcome run) = some (ticket, outcome, run)
      ∧ (encodeCutDone ticket outcome run).length = 6)
  ∧ (∀ water energy run : Half, decodeUsage (encodeUsage water energy run) = some (water, energy, run)
      ∧ (encodeUsage water energy run).length = 6)
  ∧ ∀ (level : Word) (turbidity : Half) (makeup : Word),
      decodeSample (encodeSample level turbidity makeup) = some (level, turbidity, makeup)
      ∧ (encodeSample level turbidity makeup).length = 10

/-- R6, R7: a frame that a row of the table stands for, received with its CRC and handed over in the event of its
reception, has the effect of that row on a READY receiver. Log 5: a frame can be handed over in the event of its
reception. Log 25: the row itself leaves the receiver as it is. -/
def Obligations.ReceivedFrameHasItsRowsEffect : Prop :=
  ∀ (i : Instr) (w : Wire) (s : State), WellFormed i = true → wireOf i = some w → s.part.inReset = false →
    (s.part.port w.port).receiver = .receiving → (s.part.port w.port).received = [] →
    exec (.frameReceived w.port w.dst w.src w.kind w.payload (frameCrc w.dst w.src w.kind w.payload) true) s =
      exec i { s with part := s.part.upPort w.port fun q => { q with receiver := .ready } }

/-- R2: the receiver: idle, the start delimiter, the truncated frame; and what each event leaves alone. -/
def Obligations.ReceiverStatesFollowThePair : Prop :=
  ∀ (x : Port) (s : State), s.part.inReset = false →
    ((s.part.port x).receiver = .settling →
        exec (.receivePairIdle x) s =
          .next { s with part := s.part.upPort x fun q => { q with receiver := .ready } })
    ∧ ((s.part.port x).receiver = .ready → exec (.receivePairIdle x) s = .next s)
    ∧ ((s.part.port x).receiver = .ready →
        exec (.startDelimiterReceived x) s =
          .next { s with part := s.part.upPort x fun q => { q with receiver := .receiving } })
    ∧ ((s.part.port x).receiver = .settling → exec (.startDelimiterReceived x) s = .next s)
    ∧ ((s.part.port x).receiver = .receiving →
        exec (.truncatedFrame x) s =
          .next { s with part := s.part.upPort x fun q =>
            { q with receiver := .ready, dropped := if q.dropped < 65535 then q.dropped + 1 else 65535 } })

/-- R3, R4: each fault drops the frame, raises the port's count by one up to 65535, and leaves the receiver in the
state of R3's table. R7: so does an intercepted frame (a CUT ORDER or STATION COMMAND for a mapped station, a CUT DONE
of one) whose payload has another length than its kind's, with its right CRC; it reaches no owner. -/
def Obligations.FaultyFramesAreDroppedAndCounted : Prop :=
  ∀ (x : Port) (s : State), s.part.inReset = false →
    (∀ byte : Byte, (s.part.port x).receiver = .ready → byte ≠ 0xA6 →
        exec (.badStartByte x byte) s =
          .next { s with part := s.part.upPort x fun q =>
            { q with receiver := .settling, dropped := if q.dropped < 65535 then q.dropped + 1 else 65535 } })
    ∧ (∀ length : Byte, (s.part.port x).receiver = .receiving → 64 < length.toNat →
        exec (.payloadLengthAbove64 x length) s =
          .next { s with part := s.part.upPort x fun q =>
            { q with receiver := .settling, dropped := if q.dropped < 65535 then q.dropped + 1 else 65535 } })
    ∧ (∀ (dst src kind : Byte) (payload : List Byte) (crc : Half) (handed : Bool),
        (s.part.port x).receiver = .receiving → payload.length ≤ 64 →
        (63 < dst.toNat ∨ 62 < src.toNat ∨ crc ≠ frameCrc dst src kind payload) →
        exec (.frameReceived x dst src kind payload crc handed) s =
          .next { s with part := s.part.upPort x fun q =>
            { q with receiver := .ready, dropped := if q.dropped < 65535 then q.dropped + 1 else 65535 } })
    ∧ ∀ (dst src kind : Byte) (payload : List Byte) (handed : Bool) (st : StationNo),
        (s.part.port x).receiver = .receiving → payload.length ≤ 64 → dst.toNat ≤ 63 → src.toNat ≤ 62 →
        (x = .U ∧ stationOf s.part dst = some st ∧ kind = 0x21 ∧ payload.length ≠ 12
          ∨ x = .U ∧ stationOf s.part dst = some st ∧ kind = 0x22 ∧ payload.length ≠ 1
          ∨ x = .D ∧ stationOf s.part src = some st ∧ kind = 0x61 ∧ payload.length ≠ 6) →
        exec (.frameReceived x dst src kind payload (frameCrc dst src kind payload) handed) s =
          .next { s with part := s.part.upPort x fun q =>
            { q with receiver := .ready, dropped := if q.dropped < 65535 then q.dropped + 1 else 65535 } }

/-- R6, R7, R8, R132, R10: a frame that the part neither intercepts nor acts on is offered to the opposite port: it
enters when fewer than 12 entries are in use, and is dropped and counted by the refusing port otherwise. Such are, from
port U, the kinds of no row of R6, a CUT ORDER or STATION COMMAND for a node that is not mapped, and a MANAGE REQUEST for
another node than 1; from port D, the kinds of no row of R6, a saw's frame of a node that is not mapped, a WATER SAMPLE
of another node than the plant's, and an act-and-forward frame whose payload has another length than its kind's, which
is not handed to its owner. -/
def Obligations.OtherFramesAreForwardedBelowTwelve : Prop :=
  ∀ (dst src kind : Byte) (payload : List Byte) (s : State), Quiet s.part → payload.length ≤ 64 → dst.toNat ≤ 63 →
    src.toNat ≤ 62 →
    (s.part.portU.receiver = .receiving →
      (kind ∉ [0x21, 0x22, 0x30] ∨ kind ≠ 0x30 ∧ stationOf s.part dst = none ∨ kind = 0x30 ∧ dst ≠ 1) →
      exec (.frameReceived .U dst src kind payload (frameCrc dst src kind payload) true) s =
        .next { s with part := { s.part with
          portU := { s.part.portU with receiver := .ready }
          portD := if s.part.portD.queue.length < 12
            then { s.part.portD with queue := s.part.portD.queue ++ [⟨dst, src, kind, payload⟩] }
            else { s.part.portD with
              dropped := if s.part.portD.dropped < 65535 then s.part.portD.dropped + 1 else 65535 } } })
    ∧ (s.part.portD.receiver = .receiving →
      (kind ∉ [0x30, 0x61, 0x62, 0x63, 0x64, 0x65, 0x66, 0x67, 0x71]
        ∨ kind ≠ 0x30 ∧ kind ≠ 0x71 ∧ stationOf s.part src = none
        ∨ kind = 0x62 ∧ payload.length ≠ 2 ∨ kind = 0x63 ∧ payload.length ≠ 6
        ∨ kind ∈ [0x64, 0x65, 0x66, 0x67] ∧ payload.length ≠ 0
        ∨ kind = 0x71 ∧ (payload.length ≠ 10 ∨ s.part.wbu.consts.plantNode = 0
            ∨ src.toNat ≠ s.part.wbu.consts.plantNode)) →
      exec (.frameReceived .D dst src kind payload (frameCrc dst src kind payload) true) s =
        .next { s with part := { s.part with
          portD := { s.part.portD with receiver := .ready }
          portU := if s.part.portU.queue.length < 12
            then { s.part.portU with queue := s.part.portU.queue ++ [⟨dst, src, kind, payload⟩] }
            else { s.part.portU with
              dropped := if s.part.portU.dropped < 65535 then s.part.portU.dropped + 1 else 65535 } } })

/-- R9: the transmitter begins the oldest frame; when its last byte is sent the entry is freed. -/
def Obligations.TransmitterSendsTheOldestFrame : Prop :=
  ∀ (x : Port) (s : State) (f : Frame) (rest : List Frame), Quiet s.part → (s.part.port x).queue = f :: rest →
    ((s.part.port x).sending = false →
      exec (.transmissionStart x) s = .next { s with part := s.part.upPort x fun q => { q with sending := true } })
    ∧ ((s.part.port x).sending = true →
      exec (.frameSent x) s =
        .next { s with part := s.part.upPort x fun q => { q with queue := rest, sending := false } })

/-- R9, R11, R41, R85 to R87, R94, R12, R79, R145, R188, R204: a frame that waits alone for a full queue enters as the
frame being sent leaves its entry, and its entry has its effect: a program starts the overrun timer of a RUNNING
station, a SAW STOP of the active order's stop entry starts the stop timer, MAKEUP OPEN opens the valve, the record of
a spent slot lets the consumer index pass it, a MANAGE ANSWER ends the request in progress, and JOB READ's first
segment leaves the second waiting. A frame held in a list of its own, or ATTENTION, only enters.
Log 16: the rows stand for the end of a transmission with that entry. Log 7: JOB READ's second segment begins to wait
in that event, as a group of its own. -/
def Obligations.WaitingFramesEnterAndTakeEffect : Prop :=
  ∀ (s : State) (g : Nat) (f : Frame) (st : StationNo) (c : Pipeline) (afterD afterU : Part),
    s.part.inReset = false → s.part.mgu.queue = [] → c = s.part.cpl[st] →
    afterD = { s.part with portD := { s.part.portD with
      queue := s.part.portD.queue.drop 1 ++ [f], sending := false, waiting := [] } } →
    afterU = { s.part with portU := { s.part.portU with
      queue := s.part.portU.queue.drop 1 ++ [f], sending := false, waiting := [] } } →
    (s.part.mgu.inProgress = none → s.part.portU.waiting = [] → s.part.portD.queue.length = 16 →
      s.part.portD.sending = true →
      (∀ kind number ms, (kind = .run ∨ kind = .go) → c.frames = [⟨kind, number, f⟩] →
        s.part.portD.waiting = [⟨.saw st, some g⟩] → s.part.stc[st].state = .running → s.part.stc[st].behind = none →
        c.overrun = .paused ms →
        exec (.programFrameEnters st) s = .next (s.withPart
          { afterD with cpl := s.part.cpl.set st { c with frames := [], overrun := .running ms } }))
      ∧ (∀ a, c.active = some a → a.stop ≠ none → c.frames = [⟨.stop, some a.ticket, f⟩] →
        s.part.portD.waiting = [⟨.saw st, some g⟩] →
        exec (.sawStopEnters st) s = .next (s.withPart
          { afterD with
            cpl := s.part.cpl.set st { c with frames := [], stop := .running (s.part.pipe.stopTimeout * 1000) } }))
      ∧ (s.part.portD.waiting = [⟨.valve true f, some g⟩] →
        exec .makeupOpenEnters s = .next (s.withPart
          { afterD with wbu := { s.part.wbu with valve := .opened } }))
      ∧ (s.part.portD.waiting = [⟨.pause st f, some g⟩] ∨ s.part.portD.waiting = [⟨.panelAnswer st f, some g⟩] →
        exec (.originatedFrameEnters .D) s = .next (s.withPart afterD)))
    ∧ (s.part.portD.waiting = [] → s.part.portU.queue.length = 16 → s.part.portU.sending = true →
      (s.part.mgu.inProgress = none →
        (s.part.portU.waiting = [⟨.recordHold st false f, some g⟩] → NoneDue s.part st →
          exec (.recordHoldRecordEnters st) s = .next (s.withPart afterU))
        ∧ (∀ outcome, s.part.portU.waiting = [⟨.onDeckPlace st outcome f, some g⟩] → NoneDue s.part st →
          exec (.onDeckPlaceRecordEnters st) s = .next (s.withPart afterU))
        ∧ (∀ x outcome, s.part.portU.waiting = [⟨.spentSlot st s.part.oqu[st].consumer f, some g⟩] →
          s.part.oqu[st].producer = s.part.oqu[st].consumer + 1 →
          s.part.oqu[st].slots[s.part.oqu[st].consumer] = some x → x.state = .closed outcome → c.onDeck = none →
          exec (.spentSlotRecordEnters st s.part.oqu[st].consumer) s = .next (s.withPart
            { afterU with
              oqu := s.part.oqu.set st
                { s.part.oqu[st] with
                  slots := s.part.oqu[st].slots.set s.part.oqu[st].consumer none
                  consumer := s.part.oqu[st].consumer + 1 } }))
        ∧ (s.part.portU.waiting = [⟨.attention f, some g⟩] →
          exec .attentionEnters s = .next (s.withPart afterU))
        ∧ (s.part.portU.waiting = [⟨.commandAnswer f, some g⟩] ∨ s.part.portU.waiting = [⟨.arrivalRefusal f, some g⟩]
            ∨ s.part.portU.waiting = [⟨.busy f, some g⟩] ∨ s.part.portU.waiting = [⟨.summary f, some g⟩] →
          exec (.originatedFrameEnters .U) s = .next (s.withPart afterU)))
      ∧ ∀ code tag, s.part.mgu.inProgress = some ⟨code, tag, .answering⟩ →
        (s.part.portU.waiting = [⟨.manageAnswer none f, some g⟩] →
          exec .manageAnswerEnters s = .next (s.withPart
            { afterU with mgu := { s.part.mgu with inProgress := none } }))
        ∧ (∀ second, s.part.portU.waiting = [⟨.manageAnswer (some second) f, some g⟩] →
          exec .jobReadSegmentEnters s = .next (s.withPart
            { afterU with
              portU := { afterU.portU with waiting := [⟨.manageAnswer none second, some 1⟩] } })))

/-! ### The management transport and the reads -/

/-- R12, R13: with a request in progress that stays so (its answer waits, or its AUDIT FREEZE or LINE RESET is not
complete), a request joins the back of a queue of fewer than four; with four queued it is answered BUSY, an answer that
waits at MGU while port U's queue is full; and with a BUSY answer waiting it is discarded and counted. R14: a payload
shorter than two bytes, a code that names no request and arguments too short are answered BAD_VALUE, with the code and
tag received or 0, and change nothing. Log 7: a frame that begins to wait joins the back of the waiting line as a group
of its own. Log 19: the BUSY answer to a payload shorter than two bytes carries 0 for what was not received.
Log 26: a payload of more than 64 bytes, which no frame carries, is taken like any other. -/
def Obligations.RequestsQueueOrAreAnsweredAtOnce : Prop :=
  (∀ (payload : List Byte) (s : State) (r : InProgress), s.part.inReset = false → s.part.portU.received = [] →
    s.part.mgu.inProgress = some r → StaysInProgress s.part r.phase → Grouped s.part →
    (s.part.mgu.queue.length < 4 →
      exec (.manageRequestReceived payload) s =
        .next { s with part := { s.part with mgu :=
          { s.part.mgu with queue := s.part.mgu.queue ++ [decodeRequest payload] } } })
    ∧ (s.part.mgu.queue.length = 4 → s.part.portU.anyWaits Waiter.isBusy = false → RoomU 1 s.part →
      exec (.manageRequestReceived payload) s =
        .next (s.answer s.part (decodeRequest payload).code (decodeRequest payload).tag .busy []))
    ∧ (s.part.mgu.queue.length = 4 → s.part.portU.anyWaits Waiter.isBusy = false → 16 ≤ s.part.portU.queue.length →
      exec (.manageRequestReceived payload) s =
        .next { s with part := { s.part with portU :=
          { s.part.portU with waiting := s.part.portU.waiting ++
              [⟨.busy (answerFrame (decodeRequest payload).code (decodeRequest payload).tag .busy []),
                some (nextGroup s.part.portU.waiting)⟩] } } })
    ∧ (s.part.mgu.queue.length = 4 → s.part.portU.anyWaits Waiter.isBusy = true →
      exec (.manageRequestReceived payload) s =
        .next { s with part := { s.part with portU :=
          { s.part.portU with dropped :=
              if s.part.portU.dropped < 65535 then s.part.portU.dropped + 1 else 65535 } } }))
  ∧ (∀ s : State, Quiet s.part → RoomU 1 s.part →
    exec (.malformedRequest []) s = .next (s.answer s.part 0 0 .badValue [])
    ∧ (∀ code : Byte, exec (.malformedRequest [code]) s = .next (s.answer s.part code 0 .badValue []))
    ∧ ∀ (code tag : Byte) (args : List Byte), decodeBody code.toNat args = none →
        exec (.malformedRequest (code :: tag :: args)) s = .next (s.answer s.part code tag .badValue []))

/-- R8, R186, R188: a MANAGE REQUEST that is not taken is not answered and not counted; with an empty notice queue and
nothing outstanding its notice is the only one and an ATTENTION tells of it. -/
def Obligations.ForeignManageRaisesItsNotice : Prop :=
  ∀ (x : Port) (dst src : Byte) (payload : List Byte) (s : State), WellFormed (.foreignManage x dst src payload) = true →
    Quiet s.part → RoomU 1 s.part → s.part.ntu.entries = [] → s.part.ntu.outstanding = false →
    exec (.foreignManage x dst src payload) s =
      .next (s.withPart (Part.sentU
        { s.part with ntu :=
          { s.part.ntu with entries := [⟨.foreignManage, none, .none, 1, false⟩], outstanding := true } }
        [⟨0, 1, 0x83, [1, 0]⟩]))

/-- R16, R89, R179, R191, R20: IDENTIFY and the reads of small tables answer DONE from the state and change nothing
else. -/
def Obligations.ReadsAnswerFromTheTables : Prop :=
  ∀ (tag : Byte) (s : State), Quiet s.part → RoomU 1 s.part →
    exec (.identify tag) s = .next (s.answer s.part 0x01 tag .done
        [0x45, 0xA7, 0x01, 0x9A, 0x01, match s.part.mgu.cause with | .powerUp => 0 | .warm => 1])
    ∧ exec (.pipeRead tag) s = .next (s.answer s.part 0x1C tag .done
        (num16 s.part.pipe.percent ++ num16 s.part.pipe.grace ++ num8 s.part.pipe.stopTimeout))
    ∧ exec (.ratesRead tag) s = .next (s.answer s.part 0x45 tag .done
        (num32 s.part.jau.waterRate ++ num32 s.part.jau.runRate ++ num16 s.part.jau.energyRate))
    ∧ exec (.summaryRead tag) s = .next (s.answer s.part 0x4B tag .done
        (num8 s.part.ntu.period ++ num16 s.part.ntu.timer.remaining ++ num8 s.part.ntu.number))
    ∧ exec (.postingRead tag) s = .next (s.answer s.part 0x39 tag .done
        (num8 s.part.psu.period ++ num16 s.part.psu.limit ++ num8 s.part.psu.freeze.code
          ++ num32 s.part.psu.freezeTimer.remaining
          ++ s.part.psu.posts.toList.flatMap fun x =>
              num8 x.buffer.length ++ num8 x.covered ++ num8 x.target.job.val ++ num8 x.target.ctx.code))
    ∧ exec (.stockCount tag) s = .next (s.answer s.part 0x24 tag .done
        (num16 (usedCount s.part.stk) ++ num16 (heldCount s.part.stk) ++ num16 (doubtfulCount s.part.stk)
          ++ num16 (512 - usedCount s.part.stk) ++ num16 s.part.stk.reservations))
    ∧ (∀ (st : StationNo) (station : Byte), st.val = station.toNat →
        exec (.mapRead tag station) s = .next (s.answer s.part 0x10 tag .done
          (num8 s.part.map[st].node ++ num8 s.part.map[st].cls.val ++ numFlag s.part.map[st].enabled)))
    ∧ ∀ station : Byte, 8 ≤ station.toNat →
        exec (.mapRead tag station) s = .next (s.answer s.part 0x10 tag .badValue [])

/-- R64. R130. R147, R136: the whole state of the water budget, read together. R124: the lock state, under DONE or
LOCK_DISABLED; a disabled lock of a legal part shows its power-up values. -/
def Obligations.ClassWaterAndLockReadsAnswerTheirTables : Prop :=
  (∀ (tag : Byte) (s : State), Quiet s.part → RoomU 1 s.part →
    (∀ (c : ClassNo) (cls : Byte), c.val = cls.toNat →
      exec (.classRead tag cls) s = .next (s.answer s.part 0x18 tag .done
        (num8 s.part.classes[c].kerf ++ num8 s.part.classes[c].depth ++ num16 s.part.classes[c].flow
          ++ (s.part.classes[c].feed.toList.map fun f => BitVec.ofNat 8 f) ++ num16 s.part.classes[c].lmin
          ++ num16 s.part.classes[c].wmin)))
    ∧ ∀ cls : Byte, 4 ≤ cls.toNat →
        exec (.classRead tag cls) s = .next (s.answer s.part 0x18 tag .badValue []))
  ∧ (∀ (tag : Byte) (s : State), Quiet s.part → RoomU 1 s.part →
    exec (.waterRead tag) s = .next (s.answer s.part 0x31 tag .done
      (num32 s.part.wbu.consts.capacity ++ num32 s.part.wbu.consts.lowMark ++ num32 s.part.wbu.consts.hysteresis
        ++ num32 s.part.wbu.consts.makeupOn ++ num32 s.part.wbu.consts.makeupOff
        ++ num16 s.part.wbu.consts.turbidityLimit ++ num8 s.part.wbu.consts.sampleTimeout
        ++ num32 s.part.wbu.consts.dailyAllowance ++ num8 s.part.wbu.consts.plantNode)))
  ∧ (∀ (tag : Byte) (s : State), Quiet s.part → RoomU 1 s.part →
    exec (.waterState tag) s = .next (s.answer s.part 0x32 tag .done
      (num32 s.part.wbu.level ++ num16 s.part.wbu.turbidity
        ++ num8 ((match s.part.wbu.band with | .low => 0 | .makeup => 1 | .normal => 2)
            + (match s.part.wbu.quality with | .clear => 0 | .upset => 4)
            + (match s.part.wbu.freshness with | .stale => 0 | .live => 8)
            + (match s.part.wbu.valve with | .closed => 0 | .opened => 16))
        ++ num8 0 ++ num16 s.part.wbu.sampleTimer.remaining ++ num32 s.part.wbu.allowance
        ++ num32 s.part.wbu.reserved
        ++ num32 (s.part.wbu.level - s.part.wbu.consts.lowMark - s.part.wbu.reserved)
        ++ num8 ((allStations.map fun st => if s.part.wbu.waitList[st].isSome then 2 ^ st.val else 0).sum)
        ++ num8 s.part.wbu.pointer.val)))
  ∧ (∀ (tag : Byte) (s : State), Quiet s.part → RoomU 1 s.part →
    exec (.lockQuery tag) s = .next (s.answer s.part 0x2B tag
        (if s.part.lck.disabled then .lockDisabled else .done)
        (num16 s.part.lck.low ++ num16 s.part.lck.high ++ numFlag s.part.lck.invert ++ numFlag s.part.lck.hard
          ++ numFlag s.part.lck.disabled ++ num8 (match s.part.lck.key with | .low => 0 | .high => 1)))
    ∧ (LockLegal s.part.lck → s.part.lck.disabled = true →
        s.part.lck.low = 1 ∧ s.part.lck.high = 0 ∧ s.part.lck.invert = false ∧ s.part.lck.hard = false))

/-- R109: the record is carried in the form of R205, with its holder when it is RESERVED or CUTTING. R110: the lowest
used record from the starting number on, and no wrap. -/
def Obligations.SlabReadsAnswerTheRecord : Prop :=
  (∀ (tag : Byte) (number : Half) (s : State), Quiet s.part → RoomU 1 s.part →
    (512 ≤ number.toNat → exec (.slabRead tag number) s = .next (s.answer s.part 0x22 tag .badValue []))
    ∧ ∀ n : SlabNo, n.val = number.toNat →
        (s.part.stk.slabs[n] = none →
          exec (.slabRead tag number) s = .next (s.answer s.part 0x22 tag .notFound []))
        ∧ ∀ r : Slab, s.part.stk.slabs[n] = some r →
          exec (.slabRead tag number) s = .next (s.answer s.part 0x22 tag .done
            (num16 n.val
              ++ num8 (match r.state with | .stock => 1 | .reserved _ => 2 | .cutting _ => 3 | .doubtful => 4)
              ++ num8 r.material.val ++ num8 r.thick ++ num16 r.len ++ num16 r.wid ++ num8 r.gen
              ++ num16 (match r.parent with | some q => q.val | none => 65535)
              ++ num32 r.basis ++ num16 r.yard
              ++ (match r.state with
                | .reserved h => num8 h.station.val ++ num8 h.slot.val
                | .cutting h => num8 h.station.val ++ num8 h.slot.val
                | .stock => num8 255 ++ num8 255
                | .doubtful => num8 255 ++ num8 255))))
  ∧ (∀ (tag : Byte) (start : Half) (s : State), Quiet s.part → RoomU 1 s.part →
    (512 ≤ start.toNat → exec (.slabScan tag start) s = .next (s.answer s.part 0x23 tag .badValue []))
    ∧ (start.toNat < 512 → (∀ m : SlabNo, start.toNat ≤ m.val → s.part.stk.slabs[m] = none) →
        exec (.slabScan tag start) s = .next (s.answer s.part 0x23 tag .notFound []))
    ∧ ∀ (n : SlabNo) (r : Slab), start.toNat ≤ n.val → s.part.stk.slabs[n] = some r →
        (∀ m : SlabNo, start.toNat ≤ m.val → m.val < n.val → s.part.stk.slabs[m] = none) →
        exec (.slabScan tag start) s = .next (s.answer s.part 0x23 tag .done (slabBytes n r)))

/-! ### Tables, stock and lock -/

/-- R21 and R15: the structural checks, the station's state, the clash of mapped node addresses, in that order; then
the whole entry is replaced, and a change of node address or enabled flag gives the station back to the cell computer
with an empty hold set. -/
def Obligations.MapWriteReplacesTheEntry : Prop :=
  ∀ (tag station node cls enabled : Byte) (s : State), Quiet s.part → RoomU 1 s.part →
    ((8 ≤ station.toNat ∨ node.toNat = 1 ∨ 62 < node.toNat ∨ 4 ≤ cls.toNat ∨ 2 ≤ enabled.toNat) →
      exec (.mapWrite tag station node cls enabled) s = .next (s.answer s.part 0x11 tag .badValue []))
    ∧ ∀ (st : StationNo) (c : ClassNo) (en : Bool), st.val = station.toNat → c.val = cls.toNat →
        enabled.toNat = (if en then 1 else 0) → (node.toNat = 0 ∨ (2 ≤ node.toNat ∧ node.toNat ≤ 62)) →
        (¬(s.part.stc[st].state = .service ∧ s.part.oqu[st].producer = s.part.oqu[st].consumer
            ∧ s.part.cpl[st].onDeck = none ∧ s.part.cpl[st].active = none) →
          exec (.mapWrite tag station node cls enabled) s = .next (s.answer s.part 0x11 tag .inUse []))
        ∧ (s.part.stc[st].state = .service → s.part.oqu[st].producer = s.part.oqu[st].consumer →
            s.part.cpl[st].onDeck = none → s.part.cpl[st].active = none →
          ((node.toNat ≠ 0 ∧ en = true
              ∧ ∃ x : StationNo, x ≠ st ∧ s.part.map[x].node = node.toNat ∧ s.part.map[x].node ≠ 0
                  ∧ s.part.map[x].enabled = true) →
            exec (.mapWrite tag station node cls enabled) s = .next (s.answer s.part 0x11 tag .badValue []))
          ∧ (¬(node.toNat ≠ 0 ∧ en = true
              ∧ ∃ x : StationNo, x ≠ st ∧ s.part.map[x].node = node.toNat ∧ s.part.map[x].node ≠ 0
                  ∧ s.part.map[x].enabled = true) →
            exec (.mapWrite tag station node cls enabled) s =
              .next (s.answer
                { s.part with
                  map := s.part.map.set st ⟨node.toNat, c, en⟩
                  stc := if s.part.map[st].node = node.toNat ∧ s.part.map[st].enabled = en then s.part.stc
                    else s.part.stc.set st { s.part.stc[st] with owner := .cell, holds := ⟨false, false, false⟩ } }
                0x11 tag .done [])))

/-- R23, R24, at a station that has nothing to claim or promote: RELEASE STATION takes a mapped station out of SERVICE
and nothing else; SERVICE STATION takes a station without an active order from IDLE into SERVICE and nothing else. -/
def Obligations.ReleaseAndServiceMoveAStation : Prop :=
  ∀ (tag station : Byte) (s : State), Quiet s.part → RoomU 1 s.part →
    (8 ≤ station.toNat →
      exec (.releaseStation tag station) s = .next (s.answer s.part 0x12 tag .badValue [])
      ∧ exec (.serviceStation tag station) s = .next (s.answer s.part 0x13 tag .badValue []))
    ∧ ∀ st : StationNo, st.val = station.toNat →
        ((s.part.map[st].node = 0 ∨ s.part.map[st].enabled = false) →
          exec (.releaseStation tag station) s = .next (s.answer s.part 0x12 tag .badValue []))
        ∧ (s.part.map[st].node ≠ 0 → s.part.map[st].enabled = true → s.part.stc[st].state ≠ .service →
          exec (.releaseStation tag station) s = .next (s.answer s.part 0x12 tag .done []))
        ∧ (s.part.map[st].node ≠ 0 → s.part.map[st].enabled = true → s.part.stc[st].state = .service →
            NoneDue s.part st →
          exec (.releaseStation tag station) s =
            .next (s.answer { s.part with stc := s.part.stc.set st { s.part.stc[st] with state := .idle } }
              0x12 tag .done []))
        ∧ (s.part.cpl[st].active ≠ none →
          exec (.serviceStation tag station) s = .next (s.answer s.part 0x13 tag .inUse []))
        ∧ (s.part.cpl[st].active = none →
          exec (.serviceStation tag station) s =
            .next (s.answer
              { s.part with stc := if s.part.stc[st].state = .idle
                  then s.part.stc.set st { s.part.stc[st] with state := .service } else s.part.stc }
              0x13 tag .done []))

/-- R63: every field of the entry is replaced by the written value brought to the nearer bound of its range, whatever
is under way at the stations; nothing else changes. R15, R89, R159, R179, R191: the small tables are replaced by the
written values brought into range; timers that run keep their remaining time, but that the summary timer starts when
its period leaves 0 and stops when it becomes 0. -/
def Obligations.TableWritesClampAndReplace : Prop :=
  (∀ (tag cls : Byte) (f : ClassFields) (s : State), Quiet s.part → RoomU 1 s.part →
    (4 ≤ cls.toNat → exec (.classWrite tag cls f) s = .next (s.answer s.part 0x19 tag .badValue []))
    ∧ ∀ c : ClassNo, c.val = cls.toNat →
        exec (.classWrite tag cls f) s =
          .next (s.answer
            { s.part with
              classes := s.part.classes.set c
                ⟨max 1 (min 10 f.kerf.toNat), max 5 (min 40 f.depth.toNat), max 1 (min 2000 f.flow.toNat),
                  #v[max 1 (min 200 f.feed0.toNat), max 1 (min 200 f.feed1.toNat), max 1 (min 200 f.feed2.toNat),
                    max 1 (min 200 f.feed3.toNat), max 1 (min 200 f.feed4.toNat), max 1 (min 200 f.feed5.toNat),
                    max 1 (min 200 f.feed6.toNat), max 1 (min 200 f.feed7.toNat)],
                  max 100 (min 2000 f.lmin.toNat), max 50 (min 1000 f.wmin.toNat)⟩ }
            0x19 tag
            (if (1 ≤ f.kerf.toNat ∧ f.kerf.toNat ≤ 10) ∧ (5 ≤ f.depth.toNat ∧ f.depth.toNat ≤ 40)
                ∧ (1 ≤ f.flow.toNat ∧ f.flow.toNat ≤ 2000)
                ∧ (∀ x ∈ [f.feed0, f.feed1, f.feed2, f.feed3, f.feed4, f.feed5, f.feed6, f.feed7],
                    1 ≤ x.toNat ∧ x.toNat ≤ 200)
                ∧ (100 ≤ f.lmin.toNat ∧ f.lmin.toNat ≤ 2000) ∧ (50 ≤ f.wmin.toNat ∧ f.wmin.toNat ≤ 1000)
              then .done else .clamped) []))
  ∧ (∀ (tag : Byte) (s : State), Quiet s.part → RoomU 1 s.part →
    (∀ (percent grace : Half) (stop : Byte),
      exec (.pipeWrite tag percent grace stop) s =
        .next (s.answer
          { s.part with pipe := ⟨max 110 (min 400 percent.toNat), min 600 grace.toNat, max 1 (min 60 stop.toNat)⟩ }
          0x1D tag
          (if (110 ≤ percent.toNat ∧ percent.toNat ≤ 400) ∧ grace.toNat ≤ 600 ∧ (1 ≤ stop.toNat ∧ stop.toNat ≤ 60)
            then .done else .clamped) []))
    ∧ (∀ (water run : Word) (energy : Half),
      exec (.ratesWrite tag water run energy) s =
        .next (s.answer
          { s.part with jau := { s.part.jau with
              waterRate := min 100000 water.toNat, runRate := min 100000 run.toNat,
              energyRate := min 10000 energy.toNat } }
          0x44 tag
          (if water.toNat ≤ 100000 ∧ run.toNat ≤ 100000 ∧ energy.toNat ≤ 10000 then .done else .clamped) []))
    ∧ (∀ (period : Byte) (limit : Half),
      exec (.postingWrite tag period limit) s =
        .next (s.answer
          { s.part with psu := { s.part.psu with
              period := max 1 period.toNat, limit := max 1 (min 600 limit.toNat) } }
          0x38 tag
          (if 1 ≤ period.toNat ∧ (1 ≤ limit.toNat ∧ limit.toNat ≤ 600) then .done else .clamped) []))
    ∧ ∀ period : Byte,
      exec (.summaryWrite tag period) s =
        .next (s.answer
          { s.part with ntu := { s.part.ntu with
              period := min 100 period.toNat
              timer := if period.toNat = 0 then .stopped
                else if s.part.ntu.period = 0 then .running (min 100 period.toNat * 100) else s.part.ntu.timer } }
          0x4A tag (if period.toNat ≤ 100 then .done else .clamped) []))

/-- R105, R106: the structural checks, then the owner's conditions by the state of the record, then the clamps, then
the cross-field constraints; a write that passes stores the record in STOCK, and answers it as stored. R108: the
outcome by the state of the record; a removal discards the record and changes nothing else. -/
def Obligations.SlabWriteAndRemoveChangeOneRecord : Prop :=
  (∀ (tag : Byte) (f : SlabFields) (s : State), Quiet s.part → RoomU 1 s.part →
    ((512 ≤ f.number.toNat ∨ 2 ≤ f.createOnly.toNat ∨ 8 ≤ f.material.toNat
        ∨ (512 ≤ f.parent.toNat ∧ f.parent.toNat ≠ 65535)) →
      exec (.slabWrite tag f) s = .next (s.answer s.part 0x20 tag .badValue []))
    ∧ ∀ (n : SlabNo) (createOnly : Bool) (m : Material) (parent : Option SlabNo), n.val = f.number.toNat →
        f.createOnly.toNat = (if createOnly then 1 else 0) → m.val = f.material.toNat →
        f.parent.toNat = (match parent with | some q => q.val | none => 65535) →
        ((∀ r, s.part.stk.slabs[n] = some r →
            ((∃ h, r.state = .reserved h) ∨ (∃ h, r.state = .cutting h) ∨ createOnly = true) →
            exec (.slabWrite tag f) s = .next (s.answer s.part 0x20 tag .inUse []))
        ∧ (∀ r, s.part.stk.slabs[n] = some r → (r.state = .stock ∨ r.state = .doubtful) → createOnly = false →
            cuttable s.part.lck n.val = false →
            exec (.slabWrite tag f) s = .next (s.answer s.part 0x20 tag .slabLocked []))
        ∧ (s.part.stk.slabs[n] = none → 512 ≤ usedCount s.part.stk + s.part.stk.reservations →
            exec (.slabWrite tag f) s = .next (s.answer s.part 0x20 tag .recordsFull []))
        ∧ (((s.part.stk.slabs[n] = none ∧ usedCount s.part.stk + s.part.stk.reservations < 512)
              ∨ (createOnly = false ∧ cuttable s.part.lck n.val = true
                  ∧ ∃ r, s.part.stk.slabs[n] = some r ∧ (r.state = .stock ∨ r.state = .doubtful))) →
            ((f.generation.toNat = 0 ∧ parent ≠ none) ∨ parent = some n →
              exec (.slabWrite tag f) s = .next (s.answer s.part 0x20 tag .badValue []))
            ∧ (¬((f.generation.toNat = 0 ∧ parent ≠ none) ∨ parent = some n) →
              ∀ r : Slab, r = ⟨.stock, m, max 10 (min 80 f.thickness.toNat), max 100 (min 4000 f.len.toNat),
                  max 100 (min 2200 f.wid.toNat), min 3 f.generation.toNat, parent, min 10000000 f.basis.toNat,
                  f.yard.toNat⟩ →
                exec (.slabWrite tag f) s =
                  .next (s.answer
                    { s.part with stk := { s.part.stk with slabs := s.part.stk.slabs.set n (some r) } } 0x20 tag
                    (if (10 ≤ f.thickness.toNat ∧ f.thickness.toNat ≤ 80) ∧ (100 ≤ f.len.toNat ∧ f.len.toNat ≤ 4000)
                        ∧ (100 ≤ f.wid.toNat ∧ f.wid.toNat ≤ 2200) ∧ f.generation.toNat ≤ 3
                        ∧ f.basis.toNat ≤ 10000000 then .done else .clamped)
                    (slabBytes n r))))))
  ∧ (∀ (tag : Byte) (number : Half) (s : State), Quiet s.part → RoomU 1 s.part →
    (512 ≤ number.toNat → exec (.slabRemove tag number) s = .next (s.answer s.part 0x21 tag .badValue []))
    ∧ ∀ n : SlabNo, n.val = number.toNat →
        (s.part.stk.slabs[n] = none →
          exec (.slabRemove tag number) s = .next (s.answer s.part 0x21 tag .notFound []))
        ∧ ∀ r, s.part.stk.slabs[n] = some r →
          (((∃ h, r.state = .reserved h) ∨ (∃ h, r.state = .cutting h)) →
            exec (.slabRemove tag number) s = .next (s.answer s.part 0x21 tag .inUse []))
          ∧ ((r.state = .stock ∨ r.state = .doubtful) →
            (cuttable s.part.lck n.val = false →
              exec (.slabRemove tag number) s = .next (s.answer s.part 0x21 tag .slabLocked []))
            ∧ (cuttable s.part.lck n.val = true →
              exec (.slabRemove tag number) s =
                .next (s.answer { s.part with stk := { s.part.stk with slabs := s.part.stk.slabs.set n none } }
                  0x21 tag .done []))))

/-- R119: while disabled is set every number is cuttable; otherwise exactly one of "in the range" and "invert set". -/
def Obligations.CuttableIsTheRangeOrItsInverse : Prop :=
  ∀ (l : Lck) (n : SlabNo),
    cuttable l n.val = true ↔
      (l.disabled = true ∨ (((l.low ≤ n.val ∧ n.val ≤ l.high) ∧ l.invert = false)
        ∨ (¬(l.low ≤ n.val ∧ n.val ≤ l.high) ∧ l.invert = true)))

/-- R121: the refusals in order, and the range replaced with bounds above 511 brought to 511; the answer carries the
lock state as it stands after the request. R122: LOCK ALL. -/
def Obligations.LockRequestsReplaceTheRange : Prop :=
  (∀ (tag : Byte) (low high : Half) (invert : Byte) (s : State), Quiet s.part → RoomU 1 s.part →
    (2 ≤ invert.toNat → exec (.lockRange tag low high invert) s = .next (s.answer s.part 0x28 tag .badValue []))
    ∧ ∀ inv : Bool, invert.toNat = (if inv then 1 else 0) →
        (s.part.lck.disabled = true →
          exec (.lockRange tag low high invert) s =
            .next (s.answer s.part 0x28 tag .lockDisabled (lockBytes s.part.lck)))
        ∧ (s.part.lck.disabled = false → s.part.lck.hard = true →
          exec (.lockRange tag low high invert) s =
            .next (s.answer s.part 0x28 tag .hardLocked (lockBytes s.part.lck)))
        ∧ (s.part.lck.disabled = false → s.part.lck.hard = false →
          ∀ l : Lck, l = { s.part.lck with low := min 511 low.toNat, high := min 511 high.toNat, invert := inv } →
            exec (.lockRange tag low high invert) s =
              .next (s.answer { s.part with lck := l } 0x28 tag
                (if low.toNat ≤ 511 ∧ high.toNat ≤ 511 then .done else .clamped) (lockBytes l))))
  ∧ (∀ (tag : Byte) (s : State), Quiet s.part → RoomU 1 s.part →
    (s.part.lck.disabled = true →
      exec (.lockAll tag) s = .next (s.answer s.part 0x29 tag .lockDisabled (lockBytes s.part.lck)))
    ∧ (s.part.lck.disabled = false → s.part.lck.hard = true →
      exec (.lockAll tag) s = .next (s.answer s.part 0x29 tag .hardLocked (lockBytes s.part.lck)))
    ∧ (s.part.lck.disabled = false → s.part.lck.hard = false →
      ∀ l : Lck, l = { s.part.lck with low := 1, high := 0, invert := false } →
        exec (.lockAll tag) s = .next (s.answer { s.part with lck := l } 0x29 tag .done (lockBytes l))
        ∧ ∀ n : SlabNo, cuttable l n.val = false))

/-- R123 at the request: LOCK HARD sets hard and nothing else, and is refused while disabled is set. R125: a change of
YARDKEY moves the pin and nothing else until the next sample (log 2: the sample of the next millisecond). R125, R126: at
the settle timer's expiry a level that still differs from the key level is counted, which clears hard and empties the
range when hard is set and leaves the rest alone when it is clear; a level that has returned is not counted.
Log 4: with the settle timer stopped the expiry cannot occur, and its command leaves the state as it is. -/
def Obligations.HardLockUntilTheKeyTurns : Prop :=
  (∀ (tag : Byte) (s : State), Quiet s.part → RoomU 1 s.part →
    (s.part.lck.disabled = true →
      exec (.lockHard tag) s = .next (s.answer s.part 0x2A tag .lockDisabled (lockBytes s.part.lck)))
    ∧ (s.part.lck.disabled = false → ∀ l : Lck, l = { s.part.lck with hard := true } →
      exec (.lockHard tag) s = .next (s.answer { s.part with lck := l } 0x2A tag .done (lockBytes l))))
  ∧ (∀ (level : Level) (s : State), exec (.yardkeyChange level) s = .next (s.withPart { s.part with yardkey := level }))
  ∧ ∀ (s : State) (n : Nat), s.part.inReset = false →
      (s.part.lck.settle = .stopped → exec .yardkeySettleExpiry s = .next s)
      ∧ (s.part.lck.settle = .running n → s.part.yardkey = s.part.lck.key →
        exec .yardkeySettleExpiry s =
          .next (s.withPart { s.part with lck := { s.part.lck with settle := .stopped } }))
      ∧ (s.part.lck.settle = .running n → s.part.yardkey ≠ s.part.lck.key → s.part.lck.hard = true →
        exec .yardkeySettleExpiry s =
          .next (s.withPart { s.part with lck := { s.part.lck with
            low := 1, high := 0, invert := false, hard := false, key := s.part.yardkey, settle := .stopped } }))
      ∧ (s.part.lck.settle = .running n → s.part.yardkey ≠ s.part.lck.key → s.part.lck.hard = false →
        exec .yardkeySettleExpiry s =
          .next (s.withPart { s.part with lck := { s.part.lck with key := s.part.yardkey, settle := .stopped } }))

/-! ### Jobs -/

/-- R173, R174, R175, R168: the checks of the three job requests in order, and the one job each changes; the answer
carries the job's state and counts as they stand after the request. Log 18: the reference and the accumulators of a job
that is discarded, which have no meaning (R166), are 0. -/
def Obligations.JobRequestsMoveOneJob : Prop :=
  ∀ (tag job : Byte) (reference : Word) (s : State), Quiet s.part → RoomU 1 s.part →
    (64 ≤ job.toNat →
      exec (.jobOpen tag job reference) s = .next (s.answer s.part 0x40 tag .badValue [])
      ∧ exec (.jobClose tag job) s = .next (s.answer s.part 0x41 tag .badValue [])
      ∧ exec (.jobDiscard tag job) s = .next (s.answer s.part 0x42 tag .badValue []))
    ∧ ∀ n : JobNo, n.val = job.toNat →
        (∀ (j : Job) (q : Part), j = s.part.jau.jobs[n] → q = s.part →
          ((n.val = 0 ∨ (s.part.psu.freeze ≠ .frozen ∧ j.state ≠ .free ∧ j.state ≠ .closed)) →
            exec (.jobOpen tag job reference) s = .next (s.answer q 0x40 tag .jobState (jobBytes j)))
          ∧ (n.val ≠ 0 → s.part.psu.freeze = .frozen →
            exec (.jobOpen tag job reference) s = .next (s.answer q 0x40 tag .frozen (jobBytes j)))
          ∧ ((n.val = 0 ∨ j.state ≠ .opened) →
            exec (.jobClose tag job) s = .next (s.answer q 0x41 tag .jobState (jobBytes j)))
          ∧ ((n.val = 0 ∨ (s.part.psu.freeze ≠ .frozen ∧ j.state ≠ .closed)) →
            exec (.jobDiscard tag job) s = .next (s.answer q 0x42 tag .jobState (jobBytes j)))
          ∧ (n.val ≠ 0 → s.part.psu.freeze = .frozen →
            exec (.jobDiscard tag job) s = .next (s.answer q 0x42 tag .frozen (jobBytes j))))
        ∧ ∀ (j : Job) (q : Part), n.val ≠ 0 →
            q = { s.part with jau := { s.part.jau with jobs := s.part.jau.jobs.set n j } } →
            (s.part.psu.freeze ≠ .frozen →
              (s.part.jau.jobs[n].state = .free ∨ s.part.jau.jobs[n].state = .closed) →
              j = { s.part.jau.jobs[n] with
                state := .opened, reference := reference.toNat,
                production := ⟨0, 0, 0, 0, 0⟩, rework := ⟨0, 0, 0, 0, 0⟩, service := ⟨0, 0, 0, 0, 0⟩ } →
              exec (.jobOpen tag job reference) s = .next (s.answer q 0x40 tag .done (jobBytes j)))
            ∧ (s.part.jau.jobs[n].state = .opened →
              j = { s.part.jau.jobs[n] with
                state := if s.part.jau.jobs[n].outstanding = 0 ∧ s.part.jau.jobs[n].pending = 0 then .closed
                  else .closing } →
              exec (.jobClose tag job) s = .next (s.answer q 0x41 tag .done (jobBytes j)))
            ∧ (s.part.psu.freeze ≠ .frozen → s.part.jau.jobs[n].state = .closed → j = Job.free →
              exec (.jobDiscard tag job) s = .next (s.answer q 0x42 tag .done (jobBytes j)))

/-- R176, R204, R205: JOB READ's refusals, and its two segments, which enter one after the other. -/
def Obligations.JobReadAnswersInTwoSegments : Prop :=
  ∀ (tag job : Byte) (s : State), Quiet s.part → RoomU 2 s.part →
    (64 ≤ job.toNat → exec (.jobRead tag job) s = .next (s.answer s.part 0x43 tag .badValue []))
    ∧ ∀ (n : JobNo) (j : Job), n.val = job.toNat → j = s.part.jau.jobs[n] →
        (j.state = .free → exec (.jobRead tag job) s = .next (s.answer s.part 0x43 tag .notFound []))
        ∧ (j.state ≠ .free →
          ∀ context : Acc → List Byte,
            (∀ a, context a = num32 a.material ++ num32 a.waste ++ num32 a.water ++ num32 a.run ++ num32 a.energy
              ++ num32 (contextTotal s.part.jau a)) →
            exec (.jobRead tag job) s =
              .next (s.withPart (s.part.sentU
                [⟨0, 1, 0x85, [0x43, tag, 0, 1]
                    ++ num8 (match j.state with | .free => 0 | .opened => 1 | .closing => 2 | .closed => 3)
                    ++ num32 j.reference ++ num8 j.outstanding ++ num8 j.pending
                    ++ num32 s.part.jau.waterRate ++ num32 s.part.jau.runRate ++ num16 s.part.jau.energyRate
                    ++ context j.production⟩,
                  ⟨0, 1, 0x85, [0x43, tag, 0, 2] ++ context j.rework ++ context j.service⟩])))

/-- R180: each priced term is the nearest whole cent with an exact half going up, each rounded by itself; the sum of
the five terms saturates. -/
def Obligations.ContextTotalRoundsEachTerm : Prop :=
  ∀ (j : Jau) (a : Acc), ∃ water run energy : Nat,
    contextTotal j a = min 4294967295 (a.material + a.waste + water + run + energy)
    ∧ (200000 * water ≤ 2 * (a.water * j.waterRate) + 100000
        ∧ 2 * (a.water * j.waterRate) + 100000 < 200000 * (water + 1))
    ∧ (7200000 * run ≤ 2 * (a.run * j.runRate) + 3600000
        ∧ 2 * (a.run * j.runRate) + 3600000 < 7200000 * (run + 1))
    ∧ (2000 * energy ≤ 2 * (a.energy * j.energyRate) + 1000
        ∧ 2 * (a.energy * j.energyRate) + 1000 < 2000 * (energy + 1))

/-! ### Notices and summaries -/

/-- R186, R187: a notice is coalesced into the entry of its kind and station, or forms an entry, or is dropped with
the lost mark set on the entry that joined last (log 9: `entries` stand in the order of joining). -/
def Obligations.NoticesCoalesceJoinOrAreLost : Prop :=
  ∀ (u : Ntu) (kind : NoticeKind) (station : Option StationNo) (subject : Subject),
    ((∃ n ∈ u.entries, n.kind = kind ∧ n.station = station) →
      (joinNotice u kind station subject).entries = u.entries.map fun n =>
          if n.kind = kind ∧ n.station = station
          then { n with count := if n.count < 255 then n.count + 1 else 255, subject := subject } else n)
    ∧ ((∀ n ∈ u.entries, ¬(n.kind = kind ∧ n.station = station)) → u.entries.length < 32 →
      (joinNotice u kind station subject).entries = u.entries ++ [⟨kind, station, subject, 1, false⟩])
    ∧ ((∀ n ∈ u.entries, ¬(n.kind = kind ∧ n.station = station)) →
        ∀ (before : List Notice) (newest : Notice), u.entries = before ++ [newest] → 32 ≤ u.entries.length →
        (joinNotice u kind station subject).entries = before ++ [{ newest with lost := true }])
    ∧ joinNotice u kind station subject = { u with entries := (joinNotice u kind station subject).entries }

/-- R190, R184: NOTICE READ returns the first four entries of the queue in queue order and leaves the others in
theirs, and does not change outstanding. R189: outstanding is cleared, each water condition that holds and is not
queued is raised again, and an ATTENTION is formed when the queue is not empty.
Log 11: the ATTENTION enters before the answer. Log 24: the subject number of a notice without a subject is 0. -/
def Obligations.NoticeReadAndAckServeTheQueue : Prop :=
  (∀ (tag : Byte) (s : State), Quiet s.part → RoomU 1 s.part →
    ∃ es : List Notice, es.Sublist s.part.ntu.entries
      ∧ noticeQueue { s.part.ntu with entries := es } = (noticeQueue s.part.ntu).drop 4
      ∧ exec (.noticeRead tag) s =
          .next (s.answer { s.part with ntu := { s.part.ntu with entries := es } } 0x48 tag .done
            (num8 ((noticeQueue s.part.ntu).take 4).length ++ num8 es.length
              ++ ((noticeQueue s.part.ntu).take 4).flatMap noticeBytes)))
  ∧ (∀ (tag : Byte) (s : State) (low upset u : Ntu), Quiet s.part → RoomU 2 s.part →
    low = (if s.part.wbu.band = .low ∧ ∀ n ∈ s.part.ntu.entries, ¬(n.kind = .waterLow ∧ n.station = none)
      then joinNotice { s.part.ntu with outstanding := false } .waterLow none .none
      else { s.part.ntu with outstanding := false }) →
    upset = (if s.part.wbu.quality = .upset ∧ ∀ n ∈ low.entries, ¬(n.kind = .waterUpset ∧ n.station = none)
      then joinNotice low .waterUpset none .none else low) →
    u = (if s.part.wbu.freshness = .stale ∧ ∀ n ∈ upset.entries, ¬(n.kind = .waterStale ∧ n.station = none)
      then joinNotice upset .waterStale none .none else upset) →
    (u.entries = [] →
      exec (.ackAttention tag) s = .next (s.answer { s.part with ntu := u } 0x49 tag .done [0, 0]))
    ∧ (u.entries ≠ [] →
      exec (.ackAttention tag) s =
        .next (s.answer
          (Part.sentU { s.part with ntu := { u with outstanding := true } }
            [⟨0, 1, 0x83, num8 u.entries.length ++ num8 (urgentCount u)⟩])
          0x49 tag .done (num8 u.entries.length ++ [1]))))

/-- R191, R192, R202: the summary timer's expiry restarts it at its period and sends a LINE SUMMARY of 56 bytes with
the next summary number: four bytes for each station, the tank, the freeze and outstanding bits, the drop counts and
the number of notices. Log 12: the number is raised before the frame is formed. Log 4: with the timer stopped
the expiry cannot occur, and its command leaves the state as it is. -/
def Obligations.SummaryExpirySendsTheLineSummary : Prop :=
  ∀ (s : State) (ms : Nat) (bytes : List Byte), Quiet s.part → RoomU 1 s.part →
    (s.part.ntu.timer = .stopped → exec .summaryTimerExpiry s = .next s)
    ∧ (s.part.ntu.timer = .running ms →
      bytes = num8 ((s.part.ntu.number + 1) % 256)
        ++ (allStations.flatMap fun st =>
          num8 (match s.part.stc[st].state with
            | .service => 0 | .idle => 1 | .running => 2 | .held => 3 | .stopping => 4)
          ++ num8 ((if s.part.stc[st].owner = .panel then 1 else 0) + (if s.part.stc[st].holds.water then 2 else 0)
            + (if s.part.stc[st].holds.panel then 4 else 0) + (if s.part.stc[st].holds.cell then 8 else 0)
            + (if s.part.cpl[st].onDeck.isSome then 16 else 0)
            + (if (s.part.cpl[st].onDeck.any fun d => d.staged.isSome) then 32 else 0)
            + (if s.part.cpl[st].active.isSome then 64 else 0))
          ++ num8 (16 * s.part.oqu[st].producer.val + s.part.oqu[st].consumer.val)
          ++ num8 (match s.part.cpl[st].active with | some a => a.pass | none => 0))
        ++ num32 s.part.wbu.level ++ num32 s.part.wbu.reserved
        ++ num32 (s.part.wbu.level - s.part.wbu.consts.lowMark - s.part.wbu.reserved) ++ num32 s.part.wbu.allowance
        ++ num8 ((match s.part.wbu.band with | .low => 0 | .makeup => 1 | .normal => 2)
          + (if s.part.wbu.quality = .upset then 4 else 0) + (if s.part.wbu.freshness = .live then 8 else 0)
          + (if s.part.wbu.valve = .opened then 16 else 0))
        ++ num8 ((if s.part.psu.freeze = .frozen then 1 else 0) + (if s.part.ntu.outstanding then 2 else 0))
        ++ num16 s.part.portU.dropped ++ num16 s.part.portD.dropped ++ num8 s.part.ntu.entries.length →
      bytes.length = 56
      ∧ exec .summaryTimerExpiry s = .next (s.withPart (Part.sentU
          { s.part with ntu := { s.part.ntu with
              number := (s.part.ntu.number + 1) % 256
              timer := if s.part.ntu.period = 0 then .stopped else .running (s.part.ntu.period * 100) } }
          [⟨0, 1, 0x84, bytes⟩])))

/-! ### Water -/

/-- R133: the band by the level and the band before, with the hysteresis on leaving LOW. R132, R134, R144, R145: a
sample of the plant node: the tank takes the sample, the valve opens, closes or stays, and the frame goes on to port U.
R143: where no order is cutting and no station holds WATER, nothing else happens. Where one station has an active order
and a hold condition appears, or stands with WATER not yet held, WATER joins its hold set: a RUNNING station passes to
HELD, its overrun timer is paused and its saw is sent a SAW PAUSE, and in another state nothing is sent; WATER_LOW and
WATER_UPSET are raised as the band becomes LOW and the quality UPSET. Where no hold condition stands, WATER leaves the
hold set of the one station that holds it: a HELD station with no other reason is RUNNING again, its overrun timer goes
on and its saw is sent a SAW RESUME. Throughout, no station that waits for water has a need that fits (R138), and
ALLOWANCE_OUT is not due. -/
def Obligations.SampleMovesTheTank : Prop :=
  (∀ (c : WaterConsts) (before : Band) (level : Nat),
    (before = .low → level < c.lowMark + c.hysteresis → bandAfter c before level = .low)
    ∧ (before = .low → c.lowMark + c.hysteresis ≤ level → level < c.makeupOn → bandAfter c before level = .makeup)
    ∧ (before = .low → c.lowMark + c.hysteresis ≤ level → c.makeupOn ≤ level → bandAfter c before level = .normal)
    ∧ (before ≠ .low → level < c.lowMark → bandAfter c before level = .low)
    ∧ (before ≠ .low → c.lowMark ≤ level → level < c.makeupOn → bandAfter c before level = .makeup)
    ∧ (before ≠ .low → c.lowMark ≤ level → c.makeupOn ≤ level → bandAfter c before level = .normal))
  ∧ (∀ (dst src : Byte) (level : Word) (turbidity : Half) (makeup : Word) (s : State) (w : Wbu) (sample : Frame)
      (valve : Valve) (moved : List Frame),
    Quiet s.part → RoomD 2 s.part → ForwardU 0 s.part →
    dst.toNat ≤ 63 → src.toNat ≤ 62 → src.toNat = s.part.wbu.consts.plantNode → s.part.wbu.consts.plantNode ≠ 0 →
    w = { s.part.wbu with
      level := min level.toNat s.part.wbu.consts.capacity
      turbidity := min turbidity.toNat 1000
      freshness := .live
      sampleTimer := .running (s.part.wbu.consts.sampleTimeout * 1000)
      quality := if s.part.wbu.consts.turbidityLimit < min turbidity.toNat 1000 then .upset else .clear
      band := bandAfter s.part.wbu.consts s.part.wbu.band (min level.toNat s.part.wbu.consts.capacity)
      allowance := s.part.wbu.allowance - makeup.toNat } →
    NoneFits w → (s.part.wbu.allowance = 0 ∨ makeup.toNat < s.part.wbu.allowance) →
    sample = ⟨dst, src, 0x71, encodeSample level turbidity makeup⟩ →
    ((w.valve = .closed ∧ w.band ≠ .normal ∧ 0 < w.allowance
        ∧ valve = .opened ∧ moved = [⟨BitVec.ofNat 8 w.consts.plantNode, 1, 0x51, []⟩])
      ∨ (w.valve = .opened ∧ (w.consts.makeupOff ≤ w.level ∨ w.allowance = 0)
        ∧ valve = .closed ∧ moved = [⟨BitVec.ofNat 8 w.consts.plantNode, 1, 0x52, []⟩])
      ∨ (((w.valve = .closed ∧ (w.band = .normal ∨ w.allowance = 0))
            ∨ (w.valve = .opened ∧ w.level < w.consts.makeupOff ∧ 0 < w.allowance))
        ∧ valve = w.valve ∧ moved = [])) →
    ((∀ st : StationNo, s.part.cpl[st].active = none ∧ s.part.stc[st].holds.water = false) →
      (s.part.wbu.band = .low ∨ w.band ≠ .low) → (s.part.wbu.quality = .upset ∨ w.quality = .clear) →
      exec (.waterSample dst src level turbidity makeup) s =
        .next (s.withPart (Part.sentU (Part.sentD { s.part with wbu := { w with valve := valve } } moved) [sample])))
    ∧ ∀ (st : StationNo) (c : StationCtx), c = s.part.stc[st] → programWaits s.part.cpl[st] = false →
        c.behind = none →
        (∀ (a : Active) (low upset : Ntu), s.part.cpl[st].active = some a →
          (∀ x : StationNo, x ≠ st → s.part.cpl[x].active = none) → c.holds.water = false →
          (w.band = .low ∨ w.quality = .upset) → s.part.ntu.outstanding = true →
          low = (if s.part.wbu.band ≠ .low ∧ w.band = .low then joinNotice s.part.ntu .waterLow none .none
            else s.part.ntu) →
          upset = (if s.part.wbu.quality = .clear ∧ w.quality = .upset then joinNotice low .waterUpset none .none
            else low) →
          (c.state = .running →
            exec (.waterSample dst src level turbidity makeup) s =
              .next (s.withPart (Part.sentU (Part.sentD
                { s.part with
                  wbu := { w with valve := valve }
                  stc := s.part.stc.set st { c with state := .held, holds := { c.holds with water := true } }
                  cpl := s.part.cpl.set st { s.part.cpl[st] with overrun := s.part.cpl[st].overrun.pause }
                  ntu := upset }
                (⟨BitVec.ofNat 8 s.part.map[st].node, 1, 0x45, []⟩ :: moved)) [sample])))
          ∧ (c.state ≠ .running →
            exec (.waterSample dst src level turbidity makeup) s =
              .next (s.withPart (Part.sentU (Part.sentD
                { s.part with
                  wbu := { w with valve := valve }
                  stc := s.part.stc.set st { c with holds := { c.holds with water := true } }
                  ntu := upset }
                moved) [sample]))))
        ∧ ((∀ x : StationNo, x ≠ st → s.part.stc[x].holds.water = false) → c.state = .held → c.holds.water = true →
          w.band ≠ .low → w.quality = .clear →
          (c.holds.panel = false → c.holds.cell = false →
            exec (.waterSample dst src level turbidity makeup) s =
              .next (s.withPart (Part.sentU (Part.sentD
                { s.part with
                  wbu := { w with valve := valve }
                  stc := s.part.stc.set st { c with state := .running, holds := ⟨false, false, false⟩ }
                  cpl := s.part.cpl.set st { s.part.cpl[st] with overrun := s.part.cpl[st].overrun.start } }
                (⟨BitVec.ofNat 8 s.part.map[st].node, 1, 0x46, []⟩ :: moved)) [sample])))
          ∧ ((c.holds.panel = true ∨ c.holds.cell = true) →
            exec (.waterSample dst src level turbidity makeup) s =
              .next (s.withPart (Part.sentU (Part.sentD
                { s.part with
                  wbu := { w with valve := valve }
                  stc := s.part.stc.set st { c with holds := { c.holds with water := false } } }
                moved) [sample])))))

/-- R135, R144, R145: the sample timer's expiry makes freshness STALE, raises WATER_STALE and closes an open valve.
With an ATTENTION outstanding the notice sends no frame. -/
def Obligations.SampleTimeoutMakesTheTankStale : Prop :=
  ∀ (s : State) (ms : Nat) (u : Ntu), Quiet s.part → RoomD 1 s.part → s.part.wbu.sampleTimer = .running ms →
    s.part.ntu.outstanding = true → u = joinNotice s.part.ntu .waterStale none .none →
    (s.part.wbu.valve = .closed →
      exec .sampleTimeout s =
        .next (s.withPart { s.part with
          wbu := { s.part.wbu with freshness := .stale, sampleTimer := .stopped }
          ntu := u }))
    ∧ (s.part.wbu.valve = .opened →
      exec .sampleTimeout s =
        .next (s.withPart (Part.sentD
          { s.part with
            wbu := { s.part.wbu with freshness := .stale, sampleTimer := .stopped, valve := .closed }
            ntu := u }
          [⟨BitVec.ofNat 8 s.part.wbu.consts.plantNode, 1, 0x52, []⟩])))

/-- R146, R144, R145: NEW DAY sets the allowance left; then the valve opens, closes or stays, and ALLOWANCE_OUT is not
raised when the allowance was 0 or the constant is not. R138: the grant scan grants nothing where no station that waits
has a need that fits. R138, R139, R142, R56, R79: where one station waits, with a chain of one order at the head of its
ring, and its need fits, the order is ADMITTED with its water reserved, the station leaves the wait list, the pointer
is set to it, and the order moves on-deck; the station has no active order and is not IDLE, or its panel owns it, so
that the order is neither promoted nor staged. -/
def Obligations.NewDaySetsTheAllowance : Prop :=
  ∀ (tag : Byte) (s : State), Quiet s.part → RoomU 1 s.part → RoomD 1 s.part →
    (s.part.wbu.allowance = 0 ∨ 0 < s.part.wbu.consts.dailyAllowance) →
    (NoneFits s.part.wbu →
    (s.part.wbu.valve = .closed → s.part.wbu.band ≠ .normal → s.part.wbu.freshness = .live →
        0 < s.part.wbu.consts.dailyAllowance →
      exec (.newDay tag) s = .next (s.answer
        (Part.sentD
          { s.part with wbu :=
            { s.part.wbu with allowance := s.part.wbu.consts.dailyAllowance, valve := .opened } }
          [⟨BitVec.ofNat 8 s.part.wbu.consts.plantNode, 1, 0x51, []⟩])
        0x33 tag .done (num32 s.part.wbu.consts.dailyAllowance)))
    ∧ (s.part.wbu.valve = .opened →
        (s.part.wbu.consts.makeupOff ≤ s.part.wbu.level ∨ s.part.wbu.consts.dailyAllowance = 0
          ∨ s.part.wbu.freshness = .stale) →
      exec (.newDay tag) s = .next (s.answer
        (Part.sentD
          { s.part with wbu :=
            { s.part.wbu with allowance := s.part.wbu.consts.dailyAllowance, valve := .closed } }
          [⟨BitVec.ofNat 8 s.part.wbu.consts.plantNode, 1, 0x52, []⟩])
        0x33 tag .done (num32 s.part.wbu.consts.dailyAllowance)))
    ∧ (((s.part.wbu.valve = .closed ∧ (s.part.wbu.band = .normal ∨ s.part.wbu.freshness = .stale
            ∨ s.part.wbu.consts.dailyAllowance = 0))
          ∨ (s.part.wbu.valve = .opened ∧ s.part.wbu.level < s.part.wbu.consts.makeupOff
              ∧ 0 < s.part.wbu.consts.dailyAllowance ∧ s.part.wbu.freshness = .live)) →
      exec (.newDay tag) s = .next (s.answer
        { s.part with wbu := { s.part.wbu with allowance := s.part.wbu.consts.dailyAllowance } }
        0x33 tag .done (num32 s.part.wbu.consts.dailyAllowance))))
    ∧ ∀ (st : StationNo) (r : Ring) (x : OrderRec) (t : Ticket) (need : Nat),
        ((s.part.wbu.valve = .closed ∧ (s.part.wbu.band = .normal ∨ s.part.wbu.consts.dailyAllowance = 0))
          ∨ (s.part.wbu.valve = .opened ∧ s.part.wbu.level < s.part.wbu.consts.makeupOff
              ∧ 0 < s.part.wbu.consts.dailyAllowance)) →
        s.part.wbu.freshness = .live → s.part.wbu.quality = .clear → s.part.wbu.band ≠ .low →
        s.part.wbu.waitList[st] = some need → (∀ y : StationNo, y ≠ st → s.part.wbu.waitList[y] = none) →
        need ≤ s.part.wbu.level - s.part.wbu.consts.lowMark - s.part.wbu.reserved →
        r = s.part.oqu[st] → r.producer = r.consumer + 1 → r.slots[r.consumer] = some x → x.slot = r.consumer →
        x.state = .waiting → x.ticket = some t → r.chains = [⟨x.chain, x.slot, 1, .waiting, need⟩] →
        s.part.cpl[st].onDeck = none →
        ((s.part.cpl[st].active = none ∧ s.part.stc[st].state ≠ .idle) ∨ s.part.stc[st].owner = .panel) →
        exec (.newDay tag) s = .next (s.answer
          { s.part with
            oqu := s.part.oqu.set st
              { r with slots := r.slots.set r.consumer none, consumer := r.consumer + 1, chains := [] }
            cpl := s.part.cpl.set st
              { s.part.cpl[st] with onDeck := some ⟨{ x with state := .onDeck, remaining := t.water }, none⟩ }
            wbu := { s.part.wbu with
              allowance := s.part.wbu.consts.dailyAllowance
              waitList := s.part.wbu.waitList.set st none
              pointer := st
              reserved := s.part.wbu.reserved + t.water } }
          0x33 tag .done (num32 s.part.wbu.consts.dailyAllowance))

/-- R129: WATER WRITE's refusals, and, where no order is cutting, no station holds WATER, none that waits for water has
a need that fits, and the event raises no notice and leaves the valve as it is, the whole table replaced with its
effects on the tank. -/
def Obligations.WaterWriteReplacesTheTable : Prop :=
  ∀ (tag : Byte) (f : WaterFields) (s : State) (c : WaterConsts), Quiet s.part → RoomU 1 s.part →
    c = ⟨min 4000000 f.capacity.toNat, min 4000000 f.lowMark.toNat, min 200000 f.hysteresis.toNat,
      min 4000000 f.makeupOn.toNat, min 4000000 f.makeupOff.toNat, max 1 (min 1000 f.turbidityLimit.toNat),
      max 1 (min 60 f.sampleTimeout.toNat), min 4000000 f.dailyAllowance.toNat, f.plantNode.toNat⟩ →
    ((f.plantNode.toNat = 1 ∨ 62 < f.plantNode.toNat
        ∨ ¬(c.lowMark < c.makeupOn ∧ c.makeupOn < c.makeupOff ∧ c.makeupOff ≤ c.capacity)) →
      exec (.waterWrite tag f) s = .next (s.answer s.part 0x30 tag .badValue []))
    ∧ ((f.plantNode.toNat = 0 ∨ (2 ≤ f.plantNode.toNat ∧ f.plantNode.toNat ≤ 62)) →
        c.lowMark < c.makeupOn → c.makeupOn < c.makeupOff → c.makeupOff ≤ c.capacity →
        (∀ st : StationNo, s.part.cpl[st].active = none ∧ s.part.stc[st].holds.water = false) →
        ∀ w : Wbu, w = (if s.part.wbu.freshness = .stale
            then { s.part.wbu with
              consts := c
              level := min s.part.wbu.level c.capacity
              sampleTimer := if c.plantNode = s.part.wbu.consts.plantNode then s.part.wbu.sampleTimer else .stopped }
            else { s.part.wbu with
              consts := c
              level := min s.part.wbu.level c.capacity
              quality := if c.turbidityLimit < s.part.wbu.turbidity then .upset else .clear
              band := bandAfter c s.part.wbu.band (min s.part.wbu.level c.capacity) }) →
          NoneFits w → (s.part.wbu.freshness = .stale ∨ c.plantNode = s.part.wbu.consts.plantNode) →
          (s.part.wbu.band = .low ∨ w.band ≠ .low) → (s.part.wbu.quality = .upset ∨ w.quality = .clear) →
          w.valve = .closed → (w.band = .normal ∨ w.freshness = .stale ∨ w.allowance = 0) →
          exec (.waterWrite tag f) s =
            .next (s.answer { s.part with wbu := w } 0x30 tag
              (if f.capacity.toNat ≤ 4000000 ∧ f.lowMark.toNat ≤ 4000000 ∧ f.hysteresis.toNat ≤ 200000
                  ∧ f.makeupOn.toNat ≤ 4000000 ∧ f.makeupOff.toNat ≤ 4000000
                  ∧ (1 ≤ f.turbidityLimit.toNat ∧ f.turbidityLimit.toNat ≤ 1000)
                  ∧ (1 ≤ f.sampleTimeout.toNat ∧ f.sampleTimeout.toNat ≤ 60) ∧ f.dailyAllowance.toNat ≤ 4000000
                then .done else .clamped) []))

/-! ### Posting and the audit freeze -/

/-- R92, R141, R152, R153, R154, R157, R171: a USAGE sample counts for the active order and is debited against its
remaining reservation. In THAWED with fewer than eight entries, and in PENDING or FROZEN when no entry present takes it,
it forms an entry with the station's target, which restarts the coalescing timer; outside FROZEN the fourth entry with
no drain in flight starts a drain of four and stops the timer. In PENDING or FROZEN, or with eight entries, it is added
to the newest USAGE entry with that target, each sum saturating with POST_SATURATED (R152); a full buffer without such
an entry loses it with POST_LOST. Every way the frame is forwarded. -/
def Obligations.UsageIsDebitedAndPosted : Prop :=
  ∀ (dst src : Byte) (w en run : Half) (st : StationNo) (s : State) (x : Posting) (debited : Part) (fwd : Frame),
    Quiet s.part → dst.toNat ≤ 63 → src.toNat ≤ 62 → stationOf s.part src = some st → ForwardU 0 s.part →
    x = s.part.psu.posts[st] → fwd = ⟨dst, src, 0x63, encodeUsage w en run⟩ →
    ((s.part.cpl[st].active = none ∧ debited = s.part)
      ∨ ∃ a, s.part.cpl[st].active = some a ∧ debited = { s.part with
          cpl := s.part.cpl.set st
            { s.part.cpl[st] with
              active := some
                { a with
                  waterUsed := min 4294967295 (a.waterUsed + w.toNat)
                  order := { a.order with remaining := a.order.remaining - min w.toNat a.order.remaining } } }
          wbu := { s.part.wbu with reserved := s.part.wbu.reserved - min w.toNat a.order.remaining } }) →
    (x.buffer.length < 8 →
        (s.part.psu.freeze = .thawed ∨ ∀ y ∈ x.buffer, y.charge = true ∨ y.target ≠ x.target) →
      exec (.usage dst src w en run) s = .next (s.withPart (Part.sentU
        { debited with
          psu := { s.part.psu with
            posts := s.part.psu.posts.set st
              ⟨x.target, x.buffer ++ [⟨x.target, false, w.toNat, en.toNat, run.toNat, 0, 0⟩],
                if s.part.psu.freeze ≠ .frozen ∧ x.covered = 0 ∧ 3 ≤ x.buffer.length then 4 else x.covered,
                if s.part.psu.freeze ≠ .frozen ∧ x.covered = 0 ∧ x.buffer.length = 3 then .stopped
                else .running (s.part.psu.period * 100)⟩ }
          jau := { s.part.jau with
            jobs := s.part.jau.jobs.set x.target.job
              { s.part.jau.jobs[x.target.job] with pending := s.part.jau.jobs[x.target.job].pending + 1 } } } [fwd])))
    ∧ (∀ older newest later, s.part.psu.freeze ≠ .thawed ∨ x.buffer.length = 8 → x.buffer = older ++ newest :: later →
        newest.charge = false → newest.target = x.target → (∀ y ∈ later, y.charge = true ∨ y.target ≠ x.target) →
        ∀ (full : Prop) (u : Ntu), full = ((0 < w.toNat ∧ 4294967295 ≤ newest.water + w.toNat)
            ∨ (0 < en.toNat ∧ 4294967295 ≤ newest.energy + en.toNat)
            ∨ (0 < run.toNat ∧ 4294967295 ≤ newest.run + run.toNat)) →
          (full → s.part.ntu.outstanding = true ∧ u = joinNotice s.part.ntu .postSaturated (some st) (.job x.target.job)) →
          (¬full → u = s.part.ntu) →
          exec (.usage dst src w en run) s = .next (s.withPart (Part.sentU
            { debited with
              psu := { s.part.psu with
                posts := s.part.psu.posts.set st
                  { x with
                    buffer := older ++ { newest with
                      water := min 4294967295 (newest.water + w.toNat)
                      energy := min 4294967295 (newest.energy + en.toNat)
                      run := min 4294967295 (newest.run + run.toNat) } :: later } }
              ntu := u } [fwd])))
    ∧ (x.buffer.length = 8 → (∀ y ∈ x.buffer, y.charge = true ∨ y.target ≠ x.target) → s.part.ntu.outstanding = true →
        exec (.usage dst src w en run) s = .next (s.withPart (Part.sentU
          { debited with ntu := joinNotice s.part.ntu .postLost (some st) (.job x.target.job) } [fwd])))

/-- R155, R154, R161, R171, R172, R177: one application of a drain: the oldest entry leaves the buffer, its figures
are added to its job's accumulators in its context, each sum saturating with POST_SATURATED (R178), the pending count
falls, and the drain covers one entry fewer; as it ends, four entries or more start the next. Nothing is applied while
FROZEN or with no drain in flight. R157, R156: the coalescing timer's expiry flushes the buffer: outside FROZEN
a drain covers every entry present; in FROZEN, and with an empty buffer, only the timer stops. Log 4: an application while
FROZEN or with no drain in flight, and an expiry with the timer stopped, cannot occur, and their commands leave the
state as it is. -/
def Obligations.DrainsApplyEntriesAndTimersStartThem : Prop :=
  (∀ (st : StationNo) (s : State) (x : Posting) (y : Entry) (rest : List Entry) (j : Job) (acc sum : Acc), Quiet s.part →
    x = s.part.psu.posts[st] →
    (s.part.psu.freeze = .frozen ∨ x.covered = 0 → exec (.drainApplication st) s = .next s)
    ∧ (s.part.psu.freeze ≠ .frozen → 0 < x.covered → x.buffer = y :: rest → j = s.part.jau.jobs[y.target.job] →
      acc = (match y.target.ctx with
        | .production => j.production
        | .rework => j.rework
        | .service => j.service) →
      sum = ⟨min 4294967295 (acc.material + y.material), min 4294967295 (acc.waste + y.waste),
        min 4294967295 (acc.water + y.water), min 4294967295 (acc.run + y.run),
        min 4294967295 (acc.energy + y.energy)⟩ →
      ∀ (full : Prop) (u : Ntu), full = ((0 < y.material ∧ 4294967295 ≤ acc.material + y.material)
          ∨ (0 < y.waste ∧ 4294967295 ≤ acc.waste + y.waste) ∨ (0 < y.water ∧ 4294967295 ≤ acc.water + y.water)
          ∨ (0 < y.run ∧ 4294967295 ≤ acc.run + y.run) ∨ (0 < y.energy ∧ 4294967295 ≤ acc.energy + y.energy)) →
      (full → s.part.ntu.outstanding = true
        ∧ u = joinNotice s.part.ntu .postSaturated (some st) (.job y.target.job)) → (¬full → u = s.part.ntu) →
      exec (.drainApplication st) s = .next (s.withPart
        { s.part with
          psu := { s.part.psu with
            posts := s.part.psu.posts.set st
              ⟨x.target, rest, if x.covered = 1 ∧ 4 ≤ rest.length then 4 else x.covered - 1,
                if x.covered = 1 ∧ rest.length = 4 then .stopped else x.timer⟩ }
          jau := { s.part.jau with
            jobs := s.part.jau.jobs.set y.target.job
              { j with
                state := if j.state = .closing ∧ j.outstanding = 0 ∧ j.pending - 1 = 0 then .closed else j.state
                pending := j.pending - 1
                production := if y.target.ctx = .production then sum else j.production
                rework := if y.target.ctx = .rework then sum else j.rework
                service := if y.target.ctx = .service then sum else j.service } }
          ntu := u })))
  ∧ (∀ (st : StationNo) (s : State) (x : Posting) (ms : Nat), Quiet s.part → x = s.part.psu.posts[st] →
    (x.timer = .stopped → exec (.coalescingTimerExpiry st) s = .next s)
    ∧ (x.timer = .running ms →
      exec (.coalescingTimerExpiry st) s = .next (s.withPart
        { s.part with
          psu := { s.part.psu with
            posts := s.part.psu.posts.set st
              { x with
                timer := .stopped
                covered := if s.part.psu.freeze = .frozen ∨ x.buffer = [] then x.covered else x.buffer.length } } })))

/-- R160: AUDIT FREEZE takes effect and is answered at once when no drain is in flight, and waits in PENDING for the
last drain otherwise; in FROZEN it is answered FROZEN and reloads nothing. R160: in PENDING with no drain in flight
the freeze takes effect: the state is FROZEN, its timer is loaded, and the AUDIT FREEZE in progress is answered. While
a drain is in flight the freeze cannot take effect, and the command for it leaves the state as it is (log 4). -/
def Obligations.AuditFreezeWaitsForTheDrains : Prop :=
  (∀ (tag : Byte) (s : State), Quiet s.part → RoomU 1 s.part →
    (s.part.psu.freeze = .frozen → exec (.auditFreeze tag) s = .next (s.answer s.part 0x3A tag .frozen []))
    ∧ (s.part.psu.freeze ≠ .frozen → (∀ st : StationNo, s.part.psu.posts[st].covered = 0) →
      exec (.auditFreeze tag) s =
        .next (s.answer { s.part with psu :=
          { s.part.psu with freeze := .frozen, freezeTimer := .running (s.part.psu.limit * 1000) } }
          0x3A tag .done []))
    ∧ ∀ st : StationNo, s.part.psu.freeze ≠ .frozen → 0 < s.part.psu.posts[st].covered →
        exec (.auditFreeze tag) s =
          .next (s.withPart { s.part with
            psu := { s.part.psu with freeze := .pending }
            mgu := { s.part.mgu with inProgress := some ⟨0x3A, tag, .freezing⟩ } }))
  ∧ (∀ (s : State) (r : InProgress), s.part.inReset = false → s.part.mgu.queue = [] →
    s.part.mgu.inProgress = some r → r.phase = .freezing → s.part.psu.freeze = .pending →
    s.part.portU.waiting = [] → s.part.portD.waiting = [] → RoomU 1 s.part →
    ((∀ st : StationNo, s.part.psu.posts[st].covered = 0) →
      exec .freezeTakesEffect s =
        .next (s.answer { s.part with
          psu := { s.part.psu with freeze := .frozen, freezeTimer := .running (s.part.psu.limit * 1000) }
          mgu := { s.part.mgu with inProgress := none } } r.code r.tag .done []))
    ∧ ∀ st : StationNo, 0 < s.part.psu.posts[st].covered → exec .freezeTakesEffect s = .next s)

/-- R162, R163: AUDIT THAW, and the freeze timer's expiry with its notice (with an ATTENTION outstanding): the state
is THAWED, the timer is stopped, and a drain covers every entry of every station. Where no station has anything due
for its on-deck slot, nothing is promoted. In THAWED, AUDIT THAW changes nothing. -/
def Obligations.ThawDrainsEveryBuffer : Prop :=
  ∀ (s : State) (psu : Psu), Quiet s.part → (∀ st : StationNo, NoneDue s.part st) →
    psu = { s.part.psu with
      freeze := .thawed
      freezeTimer := .stopped
      posts := s.part.psu.posts.map fun x =>
        if x.buffer = [] then x else { x with covered := x.buffer.length, timer := .stopped } } →
    (∀ tag : Byte, RoomU 1 s.part →
      (s.part.psu.freeze = .frozen →
        exec (.auditThaw tag) s = .next (s.answer { s.part with psu := psu } 0x3B tag .done [1]))
      ∧ (s.part.psu.freeze = .thawed →
        exec (.auditThaw tag) s = .next (s.answer s.part 0x3B tag .done [0])))
    ∧ ∀ ms : Nat, s.part.psu.freeze = .frozen → s.part.psu.freezeTimer = .running ms →
        s.part.ntu.outstanding = true →
        exec .freezeExpiry s =
          .next (s.withPart { s.part with psu := psu, ntu := joinNotice s.part.ntu .freezeExpired none .none })

/-! ### Tickets -/

/-- R65: a ticket carries its source and the constants used. R66 to R69, R72: a piece fits or there is no ticket; the two
cuts, their kerfs, their lengths and offsets, what they leave, and which remnants are kept. -/
def Obligations.TicketCutsThePieceFromTheCorner : Prop :=
  ∀ (c : SawClass) (source : Source) (s : Stone) (l w : Nat),
    (ticketOf c source s l w = none ↔ (s.len < l ∨ s.wid < w))
    ∧ ∀ t : Ticket, ticketOf c source s l w = some t →
        (t.source = source ∧ t.len = s.len ∧ t.wid = s.wid ∧ t.thick = s.thick ∧ t.material = s.material ∧ t.gen = s.gen)
        ∧ (t.kerf = c.kerf ∧ t.maxDepth = c.depth ∧ t.flow = c.flow ∧ t.feed = c.feed[s.material] ∧ t.lmin = c.lmin
            ∧ t.wmin = c.wmin)
        ∧ (t.rip = true ↔ w < s.wid) ∧ (t.cross = true ↔ l < s.len)
        ∧ t.ripKerf = min c.kerf (s.wid - w) ∧ t.crossKerf = min c.kerf (s.len - l)
        ∧ t.ripLen = (if w < s.wid then s.len else 0) ∧ t.ripOff = (if w < s.wid then w else 0)
        ∧ t.crossLen = (if l < s.len then w else 0) ∧ t.crossOff = (if l < s.len then l else 0)
        ∧ (∀ a, t.remA = some a → a.len = s.len ∧ a.wid = s.wid - w - t.ripKerf ∧ 0 < a.wid)
        ∧ (∀ b, t.remB = some b → b.len = s.len - l - t.crossKerf ∧ b.wid = w ∧ 0 < b.len)
        ∧ (0 < s.len → (t.remA = none ↔ s.wid - w - t.ripKerf = 0))
        ∧ (0 < w → (t.remB = none ↔ s.len - l - t.crossKerf = 0))
        ∧ (∀ r, (t.remA = some r ∨ t.remB = some r) →
            (r.kept = true ↔ (c.lmin ≤ max r.len r.wid ∧ c.wmin ≤ min r.len r.wid ∧ 100 ≤ min r.len r.wid
              ∧ s.gen + 1 ≤ 3)))
        ∧ t.planned = ((t.remA.toList ++ t.remB.toList).filter fun r => r.kept).length

/-- R69: the cut length is the rip length and the cross length together. R73, R77: the kept area is that of the kept
remnants and the scrap area that of the present ones that are not kept; the source's area is the piece, the kept
remnants, the scrap and the kerf; an order whose piece is its source has no cut, no time, no water and no remnant. R70,
R71: the passes go through the whole thickness and none is deeper than the class allows; the estimated time and the
water are rounded up. -/
def Obligations.TicketFiguresAddUp : Prop :=
  (∀ (c : SawClass) (source : Source) (s : Stone) (l w : Nat) (t : Ticket), ticketOf c source s l w = some t →
    t.cutLen = t.ripLen + t.crossLen ∧ t.areaSource = s.len * s.wid ∧ t.areaPiece = l * w
    ∧ t.areaKerf = s.len * t.ripKerf + w * t.crossKerf
    ∧ t.areaKept = (((t.remA.toList ++ t.remB.toList).filter fun r => r.kept).map fun r => r.len * r.wid).sum
    ∧ t.areaScrap = (((t.remA.toList ++ t.remB.toList).filter fun r => !r.kept).map fun r => r.len * r.wid).sum
    ∧ t.areaSource = t.areaPiece + t.areaKept + t.areaScrap + t.areaKerf
    ∧ (l = s.len → w = s.wid →
        t.takeWhole = true ∧ t.cutLen = 0 ∧ t.tEst = 0 ∧ t.water = 0 ∧ t.remA = none ∧ t.remB = none
          ∧ t.areaKerf = 0 ∧ t.areaScrap = 0 ∧ t.planned = 0))
  ∧ (∀ (c : SawClass) (source : Source) (s : Stone) (l w : Nat) (t : Ticket), ticketOf c source s l w = some t →
    c.InRange → 10 ≤ s.thick → s.thick ≤ 80 →
    (1 ≤ t.passes ∧ t.passes ≤ 16)
    ∧ ((t.passes - 1) * c.depth < s.thick ∧ s.thick ≤ t.passes * c.depth)
    ∧ (t.passDepth * t.passes < s.thick + t.passes ∧ s.thick ≤ t.passDepth * t.passes ∧ t.passDepth ≤ c.depth)
    ∧ ((t.passes - 1) * t.passDepth + t.lastDepth = s.thick ∧ 1 ≤ t.lastDepth ∧ t.lastDepth ≤ t.passDepth)
    ∧ (t.cutLen * t.passes * 1000 ≤ t.tEst * c.feed[s.material]
        ∧ t.tEst * c.feed[s.material] < t.cutLen * t.passes * 1000 + c.feed[s.material])
    ∧ (c.flow * t.tEst ≤ t.water * 1000 ∧ t.water * 1000 < c.flow * t.tEst + 1000))

/-- R74: the material charge and the remnants' bases are rounded down, and the waste charge is all that is left of the
basis. -/
def Obligations.SplitSharesTheWholeBasis : Prop :=
  ∀ (c : SawClass) (source : Source) (s : Stone) (l w : Nat) (t : Ticket) (basis : Nat),
    ticketOf c source s l w = some t →
    (splitOf t basis).material = basis * t.areaPiece / t.areaSource
    ∧ (splitOf t basis).bases = ((t.remA.toList ++ t.remB.toList).filter fun r => r.kept).map
        (fun r => basis * (r.len * r.wid) / t.areaSource)
    ∧ (splitOf t basis).material + (splitOf t basis).waste + (splitOf t basis).bases.sum = basis

/-! ### Orders and chains -/

/-- R44, R47, R49: an order taken is written to the slot of the producer index, joins the open chain or starts one,
and waits QUEUED: in a chain that is still open, or at a station in SERVICE, or owned by its panel, or with a WAITING
chain. Nothing else changes. Log 8: the number that tells chains apart. Log 18: a chain's need before its claim, and an
order's remaining reservation, planned records and actual run before they have a meaning, are 0. -/
def Obligations.OrderJoinsTheRing : Prop :=
  ∀ (dst src : Byte) (f : OrderFields) (o : Order) (st : StationNo) (s : State) (r : Ring), Quiet s.part →
    dst.toNat ≤ 63 → src.toNat ≤ 62 → stationOf s.part dst = some st → r = s.part.oqu[st] →
    r.producer + 1 ≠ r.consumer → orderOf f = some o →
    ((∀ c, r.chains.getLast? = some c → c.state ≠ .opened) →
      (o.chain = true ∨ s.part.stc[st].state = .service ∨ s.part.stc[st].owner = .panel
        ∨ ∃ d ∈ r.chains, d.state = .waiting) →
      exec (.cutOrder dst src f) s =
        .next (s.withPart { s.part with
          oqu := s.part.oqu.set st
            { r with
              slots := r.slots.set r.producer
                (some ⟨o, r.producer, .queued, r.nextChain, 1, none, 0, 0, none, false⟩)
              producer := r.producer + 1
              chains := r.chains ++ [⟨r.nextChain, r.producer, 1, if o.chain then .opened else .unclaimed, 0⟩]
              nextChain := r.nextChain + 1 } }))
    ∧ ∀ (before : List Chain) (c : Chain), r.chains = before ++ [c] → c.state = .opened →
        (∀ d ∈ before, d.id ≠ c.id) →
        ((o.chain = true ∧ c.members + 1 < 8) ∨ s.part.stc[st].state = .service ∨ s.part.stc[st].owner = .panel
          ∨ ∃ d ∈ before, d.state = .waiting) →
        exec (.cutOrder dst src f) s =
          .next (s.withPart { s.part with
            oqu := s.part.oqu.set st
              { r with
                slots := r.slots.set r.producer
                  (some ⟨o, r.producer, .queued, c.id, c.members + 1, none, 0, 0, none, false⟩)
                producer := r.producer + 1
                chains := before ++ [⟨c.id, c.first, c.members + 1,
                  if o.chain = true ∧ c.members + 1 < 8 then .opened else .unclaimed, c.need⟩] } })

/-- R43: an order is taken only when every field is in its range, and then every field is kept as received; none is
clamped. R43, R45: an order that finds the ring full, or has a field out of range, is refused with its cut record as
received and slot NONE; a station without an open chain keeps its chains. R46, R57: where the station has an open chain
of one order, alone in its ring and with nothing on-deck, that chain is refused with it: the order closes CHAIN_REFUSED,
its record enters behind the arrival's, its slot is spent and passed, and CHAIN_REFUSED is raised with its slot as
subject. R6: an order for a node that is not mapped is forwarded. Log 10: that the chain's record enters behind the
arrival's, which no rule orders. -/
def Obligations.OrdersOutOfRangeAreRefused : Prop :=
  (∀ f : OrderFields,
    (orderOf f = none ↔ ¬((1 ≤ f.job.toNat ∧ f.job.toNat ≤ 63) ∧ (f.source.toNat ≤ 511 ∨ f.source.toNat = 65535)
        ∧ (50 ≤ f.len.toNat ∧ f.len.toNat ≤ 4000) ∧ (50 ≤ f.wid.toNat ∧ f.wid.toNat ≤ 2200)
        ∧ f.mode.toNat ≤ 1 ∧ f.chain.toNat ≤ 1 ∧ f.summaryNow.toNat ≤ 1))
    ∧ ∀ o : Order, orderOf f = some o →
        o.job.val = f.job.toNat ∧ o.len = f.len.toNat ∧ o.wid = f.wid.toNat ∧ o.tag = f.tag.toNat
        ∧ (match o.source with | .slab n => n.val = f.source.toNat | .followOn => f.source.toNat = 65535)
        ∧ (match o.mode with | .production => f.mode.toNat = 0 | .rework => f.mode.toNat = 1)
        ∧ f.chain.toNat = (if o.chain then 1 else 0) ∧ f.summaryNow.toNat = (if o.summaryNow then 1 else 0))
  ∧ (∀ (dst src : Byte) (f : OrderFields) (s : State), Quiet s.part → dst.toNat ≤ 63 → src.toNat ≤ 62 →
    (stationOf s.part dst = none → s.part.portD.queue.length < 12 →
      exec (.cutOrder dst src f) s = .next (s.withPart (s.part.sentD [⟨dst, src, 0x21, encodeOrder f⟩])))
    ∧ ∀ (st : StationNo) (record : Byte → Frame), stationOf s.part dst = some st →
        (∀ outcome, record outcome = ⟨0, 1, 0x81, num8 st.val ++ [255] ++ put16 f.tag ++ [f.job, outcome]
          ++ put16 f.source ++ put16 f.len ++ put16 f.wid ++ List.replicate 29 0⟩) →
        (RoomU 1 s.part → (∀ c, s.part.oqu[st].chains.getLast? = some c → c.state ≠ .opened) →
          (s.part.oqu[st].producer + 1 = s.part.oqu[st].consumer →
            exec (.cutOrder dst src f) s = .next (s.withPart (s.part.sentU [record 8])))
          ∧ (s.part.oqu[st].producer + 1 ≠ s.part.oqu[st].consumer → orderOf f = none →
            exec (.cutOrder dst src f) s = .next (s.withPart (s.part.sentU [record 9]))))
        ∧ ∀ (r : Ring) (x : OrderRec), RoomU 2 s.part → r = s.part.oqu[st] → r.producer = r.consumer + 1 →
            r.slots[r.consumer] = some x → x.slot = r.consumer → x.state = .queued → x.ticket = none →
            r.chains = [⟨x.chain, x.slot, 1, .opened, 0⟩] → s.part.cpl[st].onDeck = none →
            s.part.ntu.outstanding = true → orderOf f = none →
            exec (.cutOrder dst src f) s = .next (s.withPart (Part.sentU
              { s.part with
                oqu := s.part.oqu.set st
                  { r with slots := r.slots.set r.consumer none, consumer := r.consumer + 1, chains := [] }
                ntu := joinNotice s.part.ntu .chainRefused (some st) (.slot x.slot) }
              [record 9,
                ⟨0, 1, 0x81, num8 st.val ++ num8 x.slot.val ++ num16 x.order.tag ++ num8 x.order.job.val ++ num8 19
                  ++ num16 (match x.order.source with | .slab n => n.val | .followOn => 65535)
                  ++ num16 x.order.len ++ num16 x.order.wid ++ List.replicate 29 0⟩])))

/-- R50, R52: the checks of a member at the claim, in the order of R50's table; the first to fail gives its outcome.
R53, R57: from a CUT ORDER to the refusal of its chain in one event, at a station of the cell computer that is not in
SERVICE, with nothing on-deck and no other order in its ring: an order that is a chain of its own and fails closes with
its outcome; of an open chain of one order and the order that completes it, the member that fails closes with its
outcome and the other CHAIN_REFUSED. The records enter in ring order, the slots are spent and passed, and CHAIN_REFUSED
is raised with the failing slot as subject. Log 8: the counter of chains. Log 18: what has no meaning yet in the order
that arrives is 0. -/
def Obligations.ClaimChecksFailInOrder : Prop :=
  (∀ (p : Part) (st : StationNo) (g : Progress) (o : OrderRec),
    (p.jau.jobs[o.order.job].state ≠ .opened → checkMember p st g o = .error .jobNotOpen)
    ∧ (p.jau.jobs[o.order.job].state = .opened →
      (∀ n : SlabNo, o.order.source = .slab n →
        (p.stk.slabs[n] = none → checkMember p st g o = .error .slabAbsent)
        ∧ ∀ r : Slab, p.stk.slabs[n] = some r →
          (r.state ≠ .stock → checkMember p st g o = .error .slabBusy)
          ∧ (r.state = .stock → cuttable p.lck n.val = false → checkMember p st g o = .error .slabLocked)
          ∧ (r.state = .stock → cuttable p.lck n.val = true → n ∈ g.named → checkMember p st g o = .error .slabTwice)
          ∧ (r.state = .stock → cuttable p.lck n.val = true → n ∉ g.named → memberStone p g o.order = .ok r.stone))
      ∧ (o.order.source = .followOn →
        (g.last = none → checkMember p st g o = .error .noSource)
        ∧ (∀ t, g.last = some t → (t.remA = none ∨ ∃ a, t.remA = some a ∧ a.kept = false) →
            checkMember p st g o = .error .noSource)
        ∧ (∀ t a, g.last = some t → t.remA = some a → a.kept = true → memberStone p g o.order =
            .ok ⟨max a.len a.wid, min a.len a.wid, t.thick, t.material, t.gen + 1⟩))
      ∧ (∀ stone : Stone, memberStone p g o.order = .ok stone →
        (ticketOf p.classes[p.map[st].cls] o.order.source stone o.order.len o.order.wid = none →
          checkMember p st g o = .error .pieceTooLarge)
        ∧ ∀ t : Ticket, ticketOf p.classes[p.map[st].cls] o.order.source stone o.order.len o.order.wid = some t →
          (512 < usedCount p.stk + p.stk.reservations + (g.records + t.planned) →
            checkMember p st g o = .error .recordsFull)
          ∧ (usedCount p.stk + p.stk.reservations + (g.records + t.planned) ≤ 512 →
              p.wbu.consts.capacity - p.wbu.consts.lowMark < g.water + t.water →
            checkMember p st g o = .error .waterTooLarge)
          ∧ (usedCount p.stk + p.stk.reservations + (g.records + t.planned) ≤ 512 →
              g.water + t.water ≤ p.wbu.consts.capacity - p.wbu.consts.lowMark →
            checkMember p st g o = .ok ⟨g.tickets ++ [(o.slot, t)], some t,
              g.named ++ (match o.order.source with | .slab n => [n] | .followOn => []),
              g.records + t.planned, g.water + t.water⟩))))
  ∧ (∀ (dst src : Byte) (f : OrderFields) (o : Order) (st : StationNo) (s : State) (r : Ring)
      (record : OrderRec → CutOutcome → Frame), Quiet s.part → dst.toNat ≤ 63 → src.toNat ≤ 62 →
    stationOf s.part dst = some st → orderOf f = some o → o.chain = false → r = s.part.oqu[st] →
    s.part.stc[st].state ≠ .service → s.part.stc[st].owner = .cell → s.part.cpl[st].onDeck = none →
    s.part.ntu.outstanding = true →
    (∀ x outcome, record x outcome = ⟨0, 1, 0x81, num8 st.val ++ num8 x.slot.val ++ num16 x.order.tag
      ++ num8 x.order.job.val ++ num8 outcome.code
      ++ num16 (match x.order.source with | .slab n => n.val | .followOn => 65535)
      ++ num16 x.order.len ++ num16 x.order.wid ++ List.replicate 29 0⟩) →
    (∀ (y : OrderRec) (out : CutOutcome), r.producer = r.consumer → r.chains = [] → RoomU 1 s.part →
      y = ⟨o, r.producer, .queued, r.nextChain, 1, none, 0, 0, none, false⟩ →
      checkMember s.part st ⟨[], none, [], 0, 0⟩ y = .error out →
      exec (.cutOrder dst src f) s = .next (s.withPart (Part.sentU
        { s.part with
          oqu := s.part.oqu.set st
            { r with
              slots := r.slots.set r.producer none
              producer := r.producer + 1
              consumer := r.producer + 1
              nextChain := r.nextChain + 1 }
          ntu := joinNotice s.part.ntu .chainRefused (some st) (.slot r.producer) }
        [record y out])))
    ∧ ∀ (x y : OrderRec) (g : Progress) (out ofX ofY : CutOutcome) (failing : SlotNo),
        r.producer = r.consumer + 1 → r.slots[r.consumer] = some x → x.slot = r.consumer → x.state = .queued →
        x.ticket = none → r.chains = [⟨x.chain, x.slot, 1, .opened, 0⟩] → RoomU 2 s.part →
        y = ⟨o, r.producer, .queued, x.chain, 2, none, 0, 0, none, false⟩ →
        ((checkMember s.part st ⟨[], none, [], 0, 0⟩ x = .error out
            ∧ failing = x.slot ∧ ofX = out ∧ ofY = .chainRefused)
          ∨ (checkMember s.part st ⟨[], none, [], 0, 0⟩ x = .ok g ∧ checkMember s.part st g y = .error out
            ∧ failing = y.slot ∧ ofX = .chainRefused ∧ ofY = out)) →
        exec (.cutOrder dst src f) s = .next (s.withPart (Part.sentU
          { s.part with
            oqu := s.part.oqu.set st
              { r with
                slots := (r.slots.set r.consumer none).set r.producer none
                producer := r.producer + 1
                consumer := r.producer + 1
                chains := [] }
            ntu := joinNotice s.part.ntu .chainRefused (some st) (.slot failing) }
          [record x ofX, record y ofY])))

/-- From a CUT ORDER to its program in one event (R43, R44, R47, R49 to R56, R79, R81, R82, R84 to R86, R137, R139,
R151): a complete order that comes to an IDLE station of the cell computer with an empty ring and nothing in CPL's
slots, and whose job, slab, lock, piece, records and water pass, is claimed, granted, moved on-deck and promoted, and
its CUT RUN is queued for the saw. Nothing else changes. R54, R55, R137: where its water does not fit, it waits with its
slab RESERVED, its chain WAITING and its station on the wait list with its need. Log 8: the counter of chains.
Log 18: the pass, the water used and the actual run of the order promoted, and the reservation of the one that waits,
are 0. -/
def Obligations.AnOrderAloneIsCutAtOnce : Prop :=
  ∀ (dst src : Byte) (f : OrderFields) (o : Order) (st : StationNo) (s : State) (r : Ring) (n : SlabNo) (slab : Slab)
    (t : Ticket), Quiet s.part → RoomD 1 s.part → dst.toNat ≤ 63 → src.toNat ≤ 62 →
    stationOf s.part dst = some st → orderOf f = some o → o.chain = false → r = s.part.oqu[st] →
    AtRest s.part st → s.part.stc[st] = ⟨.idle, .cell, ⟨false, false, false⟩, none⟩ →
    s.part.psu.freeze ≠ .frozen → s.part.psu.posts[st].buffer = [] →
    s.part.jau.jobs[o.job].state = .opened → o.source = .slab n → s.part.stk.slabs[n] = some slab →
    slab.state = .stock → cuttable s.part.lck n.val = true →
    ticketOf s.part.classes[s.part.map[st].cls] o.source slab.stone o.len o.wid = some t →
    (t.rip = true ∨ t.cross = true) →
    usedCount s.part.stk + s.part.stk.reservations + t.planned ≤ 512 →
    t.water ≤ s.part.wbu.consts.capacity - s.part.wbu.consts.lowMark →
    (s.part.wbu.freshness = .live → s.part.wbu.quality = .clear → s.part.wbu.band ≠ .low →
    t.water ≤ s.part.wbu.level - s.part.wbu.consts.lowMark - s.part.wbu.reserved →
    exec (.cutOrder dst src f) s =
      .next (s.withPart (Part.sentD
        { s.part with
          oqu := s.part.oqu.set st
            { r with
              slots := r.slots.set r.producer none
              producer := r.producer + 1
              consumer := r.producer + 1
              nextChain := r.nextChain + 1 }
          stk := ⟨s.part.stk.slabs.set n (some { slab with state := .cutting ⟨st, r.producer⟩ }),
            s.part.stk.reservations + t.planned⟩
          jau := { s.part.jau with
            jobs := s.part.jau.jobs.set o.job
              { s.part.jau.jobs[o.job] with outstanding := s.part.jau.jobs[o.job].outstanding + 1 } }
          wbu := { s.part.wbu with
            waitList := s.part.wbu.waitList.set st none
            pointer := st
            reserved := s.part.wbu.reserved + t.water }
          stc := s.part.stc.set st ⟨.running, .cell, ⟨false, false, false⟩, none⟩
          psu := { s.part.psu with
            posts := s.part.psu.posts.set st
              { s.part.psu.posts[st] with
                target := ⟨o.job, match o.mode with | .production => .production | .rework => .rework⟩ } }
          cpl := s.part.cpl.set st
            { s.part.cpl[st] with
              active := some ⟨⟨o, r.producer, .active, r.nextChain, 1, some t, t.water, t.planned, none, false⟩,
                s.part.cpl[st].ticketNo + 1, 0, none, 0, 0⟩
              ticketNo := s.part.cpl[st].ticketNo + 1
              overrun := .running
                ((t.tEst * s.part.pipe.percent + 99) / 100 + s.part.pipe.grace * 1000) } }
        [⟨BitVec.ofNat 8 s.part.map[st].node, 1, 0x41, programBytes (s.part.cpl[st].ticketNo + 1) t⟩])))
    ∧ (¬(s.part.wbu.freshness = .live ∧ s.part.wbu.quality = .clear ∧ s.part.wbu.band ≠ .low
        ∧ t.water ≤ s.part.wbu.level - s.part.wbu.consts.lowMark - s.part.wbu.reserved) →
    exec (.cutOrder dst src f) s =
      .next (s.withPart
        { s.part with
          oqu := s.part.oqu.set st
            { r with
              slots := r.slots.set r.producer
                (some ⟨o, r.producer, .waiting, r.nextChain, 1, some t, 0, t.planned, none, false⟩)
              producer := r.producer + 1
              chains := [⟨r.nextChain, r.producer, 1, .waiting, t.water⟩]
              nextChain := r.nextChain + 1 }
          stk := ⟨s.part.stk.slabs.set n (some { slab with state := .reserved ⟨st, r.producer⟩ }),
            s.part.stk.reservations + t.planned⟩
          jau := { s.part.jau with
            jobs := s.part.jau.jobs.set o.job
              { s.part.jau.jobs[o.job] with outstanding := s.part.jau.jobs[o.job].outstanding + 1 } }
          wbu := { s.part.wbu with waitList := s.part.wbu.waitList.set st (some t.water) } }))

/-- R59, R57, R97, R41: FLUSH closes a QUEUED order CANCELLED: its record, with its fields as received and figures of
zero, enters before the COMMAND ANSWER; its slot is spent and, at the head, passed; the chain list is emptied and the
station is off the wait list. With no open order FLUSH is only answered. R58, R142: of a claimed order, WAITING or
ADMITTED in the ring, or on-deck, the claim is undone: its slab returns to STOCK, its record places and its water are
returned and its job's count falls; a staged on-deck order is unstaged with a CUT UNSTAGE (R80). No other station that
waits for water has a need that fits after the release. Log 10: the record enters before the answer. Log 20: the
station leaves the wait list before the first close. -/
def Obligations.FlushClosesTheOrders : Prop :=
  ∀ (dst src : Byte) (st : StationNo) (s : State) (r : Ring) (wait : Vector (Option Nat) 8) (answer : Frame)
    (record : OrderRec → Nat → Nat → Frame), Quiet s.part → dst.toNat ≤ 63 → src.toNat ≤ 62 →
    stationOf s.part dst = some st → r = s.part.oqu[st] → wait = s.part.wbu.waitList.set st none →
    answer = ⟨0, 1, 0x86, [BitVec.ofNat 8 st.val, 4, 0]⟩ →
    (∀ x passes time, record x passes time = ⟨0, 1, 0x81, num8 st.val ++ num8 x.slot.val ++ num16 x.order.tag
      ++ num8 x.order.job.val ++ num8 7 ++ num16 (match x.order.source with | .slab n => n.val | .followOn => 65535)
      ++ num16 x.order.len ++ num16 x.order.wid ++ num8 passes ++ num32 time ++ List.replicate 24 0⟩) →
    (s.part.cpl[st].onDeck = none →
      (r.producer = r.consumer → r.chains = [] → RoomU 1 s.part →
        exec (.flush dst src) s = .next (s.withPart (Part.sentU
          { s.part with wbu := { s.part.wbu with waitList := wait } } [answer])))
      ∧ ∀ x : OrderRec, r.producer = r.consumer + 1 → r.slots[r.consumer] = some x → x.slot = r.consumer →
          RoomU 2 s.part → ∀ emptied : Ring,
          emptied = { r with slots := r.slots.set r.consumer none, consumer := r.consumer + 1, chains := [] } →
          (x.state = .queued → x.ticket = none →
            exec (.flush dst src) s = .next (s.withPart (Part.sentU
              { s.part with
                oqu := s.part.oqu.set st emptied
                wbu := { s.part.wbu with waitList := wait } }
              [record x 0 0, answer])))
          ∧ ∀ (t : Ticket) (n : SlabNo) (slab : Slab) (j : Job) (w : Wbu),
              (x.state = .waiting ∨ x.state = .admitted) → x.ticket = some t → x.sourceRecord = some n →
              s.part.stk.slabs[n] = some slab → slab.state = .reserved ⟨st, x.slot⟩ → j = s.part.jau.jobs[x.order.job] →
              w = { s.part.wbu with waitList := wait, reserved := s.part.wbu.reserved - x.remaining } → NoneFits w →
              exec (.flush dst src) s = .next (s.withPart (Part.sentU
                { s.part with
                  oqu := s.part.oqu.set st emptied
                  stk := ⟨s.part.stk.slabs.set n (some { slab with state := .stock }),
                    s.part.stk.reservations - x.planned⟩
                  jau := { s.part.jau with
                    jobs := s.part.jau.jobs.set x.order.job
                      { j with
                        outstanding := j.outstanding - 1
                        state := if j.state = .closing ∧ j.outstanding - 1 = 0 ∧ j.pending = 0 then .closed
                          else j.state } }
                  wbu := w }
                [record x t.passes t.tEst, answer])))
    ∧ ∀ (d : OnDeck) (t : Ticket) (n : SlabNo) (slab : Slab) (j : Job) (w : Wbu),
        s.part.cpl[st].onDeck = some d → s.part.cpl[st].frames = [] → r.producer = r.consumer → r.chains = [] →
        RoomU 2 s.part → RoomD 1 s.part → d.order.state = .onDeck → d.order.ticket = some t →
        d.order.sourceRecord = some n → s.part.stk.slabs[n] = some slab →
        slab.state = .reserved ⟨st, d.order.slot⟩ → j = s.part.jau.jobs[d.order.order.job] →
        w = { s.part.wbu with waitList := wait, reserved := s.part.wbu.reserved - d.order.remaining } → NoneFits w →
        exec (.flush dst src) s = .next (s.withPart (Part.sentU (Part.sentD
          { s.part with
            cpl := s.part.cpl.set st { s.part.cpl[st] with onDeck := none }
            stk := ⟨s.part.stk.slabs.set n (some { slab with state := .stock }),
              s.part.stk.reservations - d.order.planned⟩
            jau := { s.part.jau with
              jobs := s.part.jau.jobs.set d.order.order.job
                { j with
                  outstanding := j.outstanding - 1
                  state := if j.state = .closing ∧ j.outstanding - 1 = 0 ∧ j.pending = 0 then .closed
                    else j.state } }
            wbu := w }
          (match d.staged with
            | some number => [⟨BitVec.ofNat 8 s.part.map[st].node, 1, 0x44, [number]⟩]
            | none => []))
          [record d.order t.passes t.tEst, answer]))

/-! ### Stations and the cut pipeline -/

/-- R28, R36, R33, R30, R86: HOLD puts CELL and PANEL STOP puts PANEL in the hold set. A RUNNING station passes to
HELD, its overrun timer is paused and its saw is sent a SAW PAUSE; in any other state, and for a reason already held,
nothing else happens. HOLD is refused NOT_OWNER while the panel owns the station; a PANEL STOP is forwarded. R29, R37,
R33, R30, R86: RESUME takes CELL and PANEL RESUME takes PANEL out of the hold set. When the last reason leaves a HELD
station it is RUNNING again, its overrun timer goes on and its saw is sent a SAW RESUME; while another reason stays,
and in any other state, nothing else happens (an IDLE station is examined for promotion, and here has nothing to
promote). RESUME is refused NOT_OWNER while the panel owns the station; a PANEL RESUME is forwarded. -/
def Obligations.HoldReasonsPauseAndResumeTheSaw : Prop :=
  (∀ (dst src : Byte) (st : StationNo) (s : State) (c : StationCtx) (answer : Byte → Frame)
    (held added : HoldSet → Part), Quiet s.part → dst.toNat ≤ 63 → src.toNat ≤ 62 → c = s.part.stc[st] →
    programWaits s.part.cpl[st] = false → c.behind = none → RoomD 1 s.part →
    (∀ status, answer status = ⟨0, 1, 0x86, [BitVec.ofNat 8 st.val, 1, status]⟩) →
    (∀ set, added set = { s.part with stc := s.part.stc.set st { c with holds := set } }) →
    (∀ set, held set = Part.sentD
      { s.part with
        stc := s.part.stc.set st { c with holds := set, state := .held }
        cpl := s.part.cpl.set st { s.part.cpl[st] with overrun := s.part.cpl[st].overrun.pause } }
      [⟨BitVec.ofNat 8 s.part.map[st].node, 1, 0x45, []⟩]) →
    (stationOf s.part dst = some st → RoomU 1 s.part →
      (c.owner = .panel → exec (.hold dst src) s = .next (s.withPart (s.part.sentU [answer 10])))
      ∧ (c.owner = .cell →
        (c.holds.cell = true → exec (.hold dst src) s = .next (s.withPart (s.part.sentU [answer 0])))
        ∧ (c.holds.cell = false → c.state ≠ .running →
            exec (.hold dst src) s = .next (s.withPart ((added { c.holds with cell := true }).sentU [answer 0])))
        ∧ (c.holds.cell = false → c.state = .running →
            exec (.hold dst src) s = .next (s.withPart ((held { c.holds with cell := true }).sentU [answer 0])))))
    ∧ (stationOf s.part src = some st → ForwardU 0 s.part →
      (c.holds.panel = true →
        exec (.panelStop dst src) s = .next (s.withPart (s.part.sentU [⟨dst, src, 0x66, []⟩])))
      ∧ (c.holds.panel = false → c.state ≠ .running →
          exec (.panelStop dst src) s =
            .next (s.withPart ((added { c.holds with panel := true }).sentU [⟨dst, src, 0x66, []⟩])))
      ∧ (c.holds.panel = false → c.state = .running →
          exec (.panelStop dst src) s =
            .next (s.withPart ((held { c.holds with panel := true }).sentU [⟨dst, src, 0x66, []⟩])))))
  ∧ (∀ (dst src : Byte) (st : StationNo) (s : State) (c : StationCtx) (answer : Byte → Frame)
    (goesOn left : HoldSet → Part), Quiet s.part → dst.toNat ≤ 63 → src.toNat ≤ 62 → c = s.part.stc[st] →
    programWaits s.part.cpl[st] = false → c.behind = none → RoomD 1 s.part →
    (∀ status, answer status = ⟨0, 1, 0x86, [BitVec.ofNat 8 st.val, 2, status]⟩) →
    (∀ set, left set = { s.part with stc := s.part.stc.set st { c with holds := set } }) →
    (∀ set, goesOn set = Part.sentD
      { s.part with
        stc := s.part.stc.set st { c with holds := set, state := .running }
        cpl := s.part.cpl.set st { s.part.cpl[st] with overrun := s.part.cpl[st].overrun.start } }
      [⟨BitVec.ofNat 8 s.part.map[st].node, 1, 0x46, []⟩]) →
    (stationOf s.part dst = some st → RoomU 1 s.part →
      (c.owner = .panel → exec (.resume dst src) s = .next (s.withPart (s.part.sentU [answer 10])))
      ∧ (c.owner = .cell →
        (c.holds.cell = false → exec (.resume dst src) s = .next (s.withPart (s.part.sentU [answer 0])))
        ∧ (c.holds.cell = true →
          (c.holds.water = true ∨ c.holds.panel = true ∨ (c.state ≠ .held ∧ (c.state = .idle → NoneDue s.part st))) →
            exec (.resume dst src) s = .next (s.withPart ((left { c.holds with cell := false }).sentU [answer 0])))
        ∧ (c.holds.cell = true → c.holds.water = false → c.holds.panel = false → c.state = .held →
            exec (.resume dst src) s = .next (s.withPart ((goesOn ⟨false, false, false⟩).sentU [answer 0])))))
    ∧ (stationOf s.part src = some st → ForwardU 0 s.part →
      (c.holds.panel = false →
        exec (.panelResume dst src) s = .next (s.withPart (s.part.sentU [⟨dst, src, 0x67, []⟩])))
      ∧ (c.holds.panel = true →
        (c.holds.water = true ∨ c.holds.cell = true ∨ (c.state ≠ .held ∧ (c.state = .idle → NoneDue s.part st))) →
          exec (.panelResume dst src) s =
            .next (s.withPart ((left { c.holds with panel := false }).sentU [⟨dst, src, 0x67, []⟩])))
      ∧ (c.holds.panel = true → c.holds.water = false → c.holds.cell = false → c.state = .held →
          exec (.panelResume dst src) s =
            .next (s.withPart ((goesOn ⟨false, false, false⟩).sentU [⟨dst, src, 0x67, []⟩])))))

/-- R26, R38, R35, R86, R87: ABORT in RUNNING or HELD, and the overrun timer's expiry, mark the stop reason on the
active order, stop its overrun timer, put the station in STOPPING and send its saw a SAW STOP, whose entry starts the
stop timer; the expiry raises CUT_OVERRUN. ABORT in another state is answered DONE without effect; a command of
another code is answered BAD_VALUE. Log 4: with the overrun timer stopped its expiry cannot occur, and the command
leaves the state as it is. -/
def Obligations.StopEntriesStopTheSaw : Prop :=
  ∀ (dst src : Byte) (st : StationNo) (s : State) (answer : Byte → Byte → Frame) (stopping : StopReason → Active → Part),
    Quiet s.part → dst.toNat ≤ 63 → src.toNat ≤ 62 →
    (∀ code status, answer code status = ⟨0, 1, 0x86, [BitVec.ofNat 8 st.val, code, status]⟩) →
    (∀ why a, stopping why a = Part.sentD
      { s.part with
        stc := s.part.stc.set st { s.part.stc[st] with state := .stopping, behind := none }
        cpl := s.part.cpl.set st
          { s.part.cpl[st] with
            active := some { a with stop := some why }
            overrun := .stopped
            stop := .running (s.part.pipe.stopTimeout * 1000) } }
      [⟨BitVec.ofNat 8 s.part.map[st].node, 1, 0x47, []⟩]) →
    (stationOf s.part dst = some st → RoomU 1 s.part →
      (s.part.stc[st].state ≠ .running → s.part.stc[st].state ≠ .held →
        exec (.abort dst src) s = .next (s.withPart (s.part.sentU [answer 3 0])))
      ∧ (∀ a, s.part.stc[st].state = .running ∨ s.part.stc[st].state = .held → s.part.cpl[st].active = some a →
        s.part.cpl[st].frames = [] → RoomD 1 s.part →
        exec (.abort dst src) s = .next (s.withPart ((stopping .aborted a).sentU [answer 3 0])))
      ∧ (∀ code : Byte, code.toNat = 0 ∨ 5 ≤ code.toNat →
        exec (.unknownStationCommand dst src code) s = .next (s.withPart (s.part.sentU [answer code 3]))))
    ∧ (∀ a ms, s.part.cpl[st].active = some a → s.part.cpl[st].frames = [] → RoomD 1 s.part →
        s.part.cpl[st].overrun = .running ms → s.part.ntu.outstanding = true →
        exec (.overrunExpiry st) s = .next (s.withPart
          { stopping .overrun a with ntu := joinNotice s.part.ntu .cutOverrun (some st) (.slot a.order.slot) }))
    ∧ (s.part.cpl[st].overrun = .stopped → exec (.overrunExpiry st) s = .next s)

/-- R31, R32, R34, R80: PANEL CLAIM in SERVICE or IDLE is accepted: the panel owns the station and, if it did not
before, PANEL_CLAIMED is raised and a staged on-deck order is unstaged with a CUT UNSTAGE, which enters before the
PANEL ANSWER (log 10); in another state it is refused. PANEL RELEASE gives the station back to the cell computer.
Both are forwarded. -/
def Obligations.PanelClaimsAndReleases : Prop :=
  ∀ (dst src : Byte) (st : StationNo) (s : State) (c : StationCtx) (answer : Byte → Frame), Quiet s.part →
    dst.toNat ≤ 63 → src.toNat ≤ 62 → stationOf s.part src = some st → ForwardU 0 s.part → c = s.part.stc[st] →
    (∀ result, answer result = ⟨BitVec.ofNat 8 s.part.map[st].node, 1, 0x48, [result]⟩) →
    (c.state = .service ∨ c.state = .idle → c.owner = .cell → RoomD 1 s.part →
      (∀ d, s.part.cpl[st].onDeck = some d → d.staged = none) → s.part.ntu.outstanding = true →
      exec (.panelClaim dst src) s = .next (s.withPart (Part.sentU (Part.sentD
        { s.part with
          stc := s.part.stc.set st { c with owner := .panel }
          ntu := joinNotice s.part.ntu .panelClaimed (some st) .none }
        [answer 1]) [⟨dst, src, 0x64, []⟩])))
    ∧ (∀ d number, c.state = .service ∨ c.state = .idle → c.owner = .cell → RoomD 2 s.part →
      s.part.cpl[st].onDeck = some d → d.staged = some number → s.part.cpl[st].frames = [] →
      s.part.ntu.outstanding = true →
      exec (.panelClaim dst src) s = .next (s.withPart (Part.sentU (Part.sentD
        { s.part with
          stc := s.part.stc.set st { c with owner := .panel }
          cpl := s.part.cpl.set st { s.part.cpl[st] with onDeck := some { d with staged := none } }
          ntu := joinNotice s.part.ntu .panelClaimed (some st) .none }
        [⟨BitVec.ofNat 8 s.part.map[st].node, 1, 0x44, [number]⟩, answer 1]) [⟨dst, src, 0x64, []⟩])))
    ∧ (c.state = .service ∨ c.state = .idle → c.owner = .panel → RoomD 1 s.part →
      exec (.panelClaim dst src) s =
        .next (s.withPart ((s.part.sentD [answer 1]).sentU [⟨dst, src, 0x64, []⟩])))
    ∧ (c.state ≠ .service → c.state ≠ .idle → RoomD 1 s.part →
      exec (.panelClaim dst src) s =
        .next (s.withPart ((s.part.sentD [answer 0]).sentU [⟨dst, src, 0x64, []⟩])))
    ∧ (c.owner = .panel → NoneDue s.part st →
      exec (.panelRelease dst src) s = .next (s.withPart (Part.sentU
        { s.part with stc := s.part.stc.set st { c with owner := .cell } } [⟨dst, src, 0x65, []⟩])))
    ∧ (c.owner = .cell →
      exec (.panelRelease dst src) s = .next (s.withPart (s.part.sentU [⟨dst, src, 0x65, []⟩])))

/-- R90, R91: CUT PASS notes its pass for the active order whose ticket it names and whose program has entered, and is
forwarded in every case; a CUT DONE that names no such order raises LATE_DONE, changes nothing else and is not
forwarded. -/
def Obligations.ReportsNameTheActiveTicket : Prop :=
  ∀ (dst src ticket : Byte) (st : StationNo) (s : State), Quiet s.part → dst.toNat ≤ 63 → src.toNat ≤ 62 →
    stationOf s.part src = some st →
    (∀ pass : Byte, ForwardU 0 s.part →
      (∀ a, s.part.cpl[st].active = some a → a.ticket = ticket → programWaits s.part.cpl[st] = false →
        1 ≤ pass.toNat → pass.toNat ≤ 32 →
        exec (.cutPass dst src ticket pass) s = .next (s.withPart (Part.sentU
          { s.part with
            cpl := s.part.cpl.set st { s.part.cpl[st] with active := some { a with pass := pass.toNat } } }
          [⟨dst, src, 0x62, [ticket, pass]⟩])))
      ∧ (((∀ a, s.part.cpl[st].active = some a → a.ticket ≠ ticket) ∨ programWaits s.part.cpl[st] = true
            ∨ pass.toNat = 0 ∨ 32 < pass.toNat) →
        exec (.cutPass dst src ticket pass) s =
          .next (s.withPart (s.part.sentU [⟨dst, src, 0x62, [ticket, pass]⟩]))))
    ∧ ∀ (outcome : Byte) (run : Word),
        ((∀ a, s.part.cpl[st].active = some a → a.ticket ≠ ticket) ∨ programWaits s.part.cpl[st] = true) →
        s.part.ntu.outstanding = true →
        exec (.cutDone dst src ticket outcome run) s =
          .next (s.withPart { s.part with ntu := joinNotice s.part.ntu .lateDone (some st) .none })

/-- R112: each kept remnant, A first, takes the lowest FREE record: the source's material, thickness and yard place,
the longer side as length, a generation one higher, the source as parent, and its share of the basis. -/
def Obligations.RemnantsTakeTheLowestFreeRecords : Prop :=
  ∀ (source : Slab) (n m : SlabNo) (gen basis : Nat) (r : Remnant) (state : SlabState)
    (rest : List (Remnant × Nat × SlabState)) (k : Stk), k.slabs[m] = none →
    (∀ i : SlabNo, i.val < m.val → k.slabs[i] ≠ none) →
    ∀ after : Stk × List (SlabNo × Nat × Nat),
      after = createRemnants source n gen rest { k with
        slabs := k.slabs.set m (some ⟨state, source.material, source.thick, max r.len r.wid, min r.len r.wid, gen + 1,
          some n, basis, source.yard⟩) } →
      createRemnants source n gen ((r, basis, state) :: rest) k =
        (after.1, (m, max r.len r.wid, min r.len r.wid) :: after.2)

/-- R93, R27, R74, R97, R102, R112, R114, R142, R151, R156, R158, R170: a CUT DONE with COMPLETE that names the active
order: its remnants are created and its source freed, its reservations and its water returned, its charge posted and
the buffer flushed, its job lowered, its record sent; the slot and the timers are cleared, the station is IDLE and its
usage is the house's. With no follow-on behind it, every remnant is in STOCK. R113: where the order on-deck is the
follow-on of its chain and remnant A is kept, the first record created is RESERVED for it and it is bound to that
record; the station's hold set is not empty or its panel owns it, so that nothing is promoted. No station that waits
for water has a need that fits after the release. -/
def Obligations.CompletionSettlesTheOrder : Prop :=
  ∀ (dst src ticket : Byte) (run : Word) (st : StationNo) (s : State) (a : Active) (o : Order) (t : Ticket) (n : SlabNo)
    (slab : Slab) (split : Split) (x : Posting) (w : Wbu)
    (settled : Stk × List (SlabNo × Nat × Nat) → Option OnDeck → Part),
    Quiet s.part → RoomU 1 s.part → dst.toNat ≤ 63 → src.toNat ≤ 62 → stationOf s.part src = some st →
    s.part.cpl[st].active = some a → a.ticket = ticket → s.part.cpl[st].frames = [] → o = a.order.order →
    a.order.ticket = some t → a.order.sourceRecord = some n → s.part.stk.slabs[n] = some slab →
    s.part.oqu[st].headAdmitted = none → s.part.oqu[st].headSpent = false → s.part.psu.freeze ≠ .frozen →
    w = { s.part.wbu with reserved := s.part.wbu.reserved - a.order.remaining } → NoneFits w →
    x = s.part.psu.posts[st] → x.buffer.length < 8 → o.summaryNow = false → split = splitOf t slab.basis →
    (∀ stock onDeck, settled stock onDeck = Part.sentU
      { s.part with
        stk := ⟨stock.1.slabs.set n none, stock.1.reservations - a.order.planned⟩
        wbu := w
        psu := { s.part.psu with
          posts := s.part.psu.posts.set st
            ⟨⟨0, .service⟩,
              x.buffer ++ [⟨⟨o.job, match o.mode with | .production => .production | .rework => .rework⟩, true, 0, 0, 0,
                split.material, split.waste⟩],
              x.buffer.length + 1, .stopped⟩ }
        jau := { s.part.jau with
          jobs := s.part.jau.jobs.set o.job
            { s.part.jau.jobs[o.job] with
              outstanding := s.part.jau.jobs[o.job].outstanding - 1
              pending := s.part.jau.jobs[o.job].pending + 1 } }
        cpl := s.part.cpl.set st
          { s.part.cpl[st] with onDeck := onDeck, active := none, overrun := .stopped, stop := .stopped }
        stc := s.part.stc.set st { s.part.stc[st] with state := .idle, behind := none } }
      [⟨0, 1, if stock.2 = [] then 0x81 else 0x82,
        num8 st.val ++ num8 a.order.slot.val ++ num16 o.tag ++ num8 o.job.val ++ num8 0 ++ num16 n.val ++ num16 o.len
          ++ num16 o.wid ++ num8 t.passes ++ num32 t.tEst ++ num32 run.toNat ++ num32 a.waterUsed ++ num32 split.material
          ++ num32 split.waste ++ num32 t.areaKerf ++ num32 t.areaScrap
          ++ if stock.2 = [] then [] else num8 stock.2.length
            ++ stock.2.flatMap fun y => num16 y.1.val ++ num16 y.2.1 ++ num16 y.2.2⟩]) →
    (s.part.cpl[st].onDeck = none → nextMember s.part st a.order = none →
      exec (.cutDone dst src ticket 0 run) s = .next (s.withPart (settled
        (createRemnants slab n t.gen (t.kept.zip (split.bases.zip (t.kept.map fun _ => .stock))) s.part.stk) none)))
    ∧ ∀ (d : OnDeck) (first : Remnant) (others : List Remnant) (stock : Stk × List (SlabNo × Nat × Nat)) (number : SlabNo)
        (sides : Nat × Nat) (more : List (SlabNo × Nat × Nat)),
        s.part.cpl[st].onDeck = some d → d.order.state = .onDeck → d.order.order.source = .followOn →
        d.order.chain = a.order.chain → d.order.pos = a.order.pos + 1 →
        (s.part.stc[st].holds ≠ ⟨false, false, false⟩ ∨ s.part.stc[st].owner = .panel) →
        t.remA = some first → first.kept = true → t.kept = first :: others →
        stock = createRemnants slab n t.gen
          (t.kept.zip (split.bases.zip (.reserved ⟨st, d.order.slot⟩ :: others.map fun _ => .stock))) s.part.stk →
        stock.2 = (number, sides) :: more →
        exec (.cutDone dst src ticket 0 run) s = .next (s.withPart (settled stock
          (some { d with order := { d.order with bound := some number } })))

/-- R91, R95, R88, R27, R58, R104, R97: STOPPED closes the active order with its stop reason, or ABORTED with
CUT_ABORTED when it has none, and the station is IDLE; FAULT closes it SAW_FAULT, and the stop timer's expiry NO_REPLY
with SAW_SILENT, and the station is in SERVICE. Each way its record is DOUBTFUL, which is noticed, its claim is
undone, and no charge is posted. R96: where the order on-deck is the follow-on of its chain, it closes PREDECESSOR_LOST
with it: the on-deck slot is emptied, its claim is undone too, nothing is unstaged, and its record, with the FOLLOW-ON
code as source, enters after the failed order's. Nothing else at the station is due, and no station that waits for
water has a need that fits after the releases. Log 10: the order in which the notices join. Log 4: with the stop timer
stopped its expiry cannot occur, and the command leaves the state as it is. -/
def Obligations.FailuresLeaveTheRecordDoubtful : Prop :=
  ∀ (st : StationNo) (s : State) (a : Active) (o : OrderRec) (t : Ticket) (n : SlabNo) (slab : Slab) (h : Holder)
    (lower : Job → Job) (doubtful : Ntu → Ntu) (onDeck : Option OnDeck) (records water : Nat) (jobs : Vector Job 64)
    (lost : List Frame) (failed : Byte → Nat → StationState → Ntu → Part),
    Quiet s.part → RoomU 2 s.part → s.part.cpl[st].active = some a → s.part.cpl[st].frames = [] → o = a.order →
    o.state = .active → o.ticket = some t → o.sourceRecord = some n → s.part.stk.slabs[n] = some slab →
    slab.state = .cutting h → s.part.oqu[st].headAdmitted = none → s.part.oqu[st].headSpent = false →
    s.part.ntu.outstanding = true →
    (∀ j, lower j = { j with
      outstanding := j.outstanding - 1
      state := if j.state = .closing ∧ j.outstanding - 1 = 0 ∧ j.pending = 0 then .closed else j.state }) →
    ((nextMember s.part st o = none ∧ s.part.cpl[st].onDeck = none ∧ onDeck = none ∧ records = o.planned
        ∧ water = o.remaining ∧ jobs = s.part.jau.jobs.set o.order.job (lower s.part.jau.jobs[o.order.job]) ∧ lost = [])
      ∨ ∃ (d : OnDeck) (m : OrderRec) (u : Ticket) (first : Vector Job 64), s.part.cpl[st].onDeck = some d ∧ m = d.order
        ∧ m.state = .onDeck ∧ m.order.source = .followOn ∧ m.chain = o.chain ∧ m.pos = o.pos + 1 ∧ m.bound = none
        ∧ m.ticket = some u ∧ (∀ y ∈ s.part.oqu[st].openOrders, y.chain ≠ o.chain) ∧ onDeck = none
        ∧ records = o.planned + m.planned ∧ water = o.remaining + m.remaining
        ∧ first = s.part.jau.jobs.set o.order.job (lower s.part.jau.jobs[o.order.job])
        ∧ jobs = first.set m.order.job (lower first[m.order.job])
        ∧ lost = [⟨0, 1, 0x81, num8 st.val ++ num8 m.slot.val ++ num16 m.order.tag ++ num8 m.order.job.val ++ num8 6
            ++ num16 65535 ++ num16 m.order.len ++ num16 m.order.wid ++ num8 u.passes ++ num32 u.tEst
            ++ List.replicate 24 0⟩]) →
    NoneFits { s.part.wbu with reserved := s.part.wbu.reserved - water } →
    (∀ u, doubtful u = joinNotice u .slabDoubtful (some st) (.slab n)) →
    (∀ outcome run next u, failed outcome run next u = Part.sentU
      { s.part with
        stk := ⟨s.part.stk.slabs.set n (some { slab with state := .doubtful }), s.part.stk.reservations - records⟩
        wbu := { s.part.wbu with reserved := s.part.wbu.reserved - water }
        psu := { s.part.psu with
          posts := s.part.psu.posts.set st { s.part.psu.posts[st] with target := ⟨0, .service⟩ } }
        jau := { s.part.jau with jobs := jobs }
        cpl := s.part.cpl.set st
          { s.part.cpl[st] with onDeck := onDeck, active := none, overrun := .stopped, stop := .stopped }
        stc := s.part.stc.set st { s.part.stc[st] with state := next, behind := none }
        ntu := u }
      (⟨0, 1, 0x81, num8 st.val ++ num8 o.slot.val ++ num16 o.order.tag ++ num8 o.order.job.val ++ [outcome]
          ++ num16 n.val ++ num16 o.order.len ++ num16 o.order.wid ++ num8 t.passes ++ num32 t.tEst ++ num32 run
          ++ num32 a.waterUsed ++ List.replicate 16 0⟩ :: lost)) →
    (∀ (dst src outcome : Byte) (run : Word), dst.toNat ≤ 63 → src.toNat ≤ 62 → stationOf s.part src = some st →
      (outcome = 1 → a.stop = some .aborted → exec (.cutDone dst src a.ticket outcome run) s =
        .next (s.withPart (failed 1 run.toNat .idle (doubtful s.part.ntu))))
      ∧ (outcome = 1 → a.stop = some .overrun → exec (.cutDone dst src a.ticket outcome run) s =
        .next (s.withPart (failed 2 run.toNat .idle (doubtful s.part.ntu))))
      ∧ (outcome = 1 → a.stop = none → exec (.cutDone dst src a.ticket outcome run) s =
        .next (s.withPart (failed 1 run.toNat .idle
          (doubtful (joinNotice s.part.ntu .cutAborted (some st) (.slot o.slot))))))
      ∧ (2 ≤ outcome.toNat → exec (.cutDone dst src a.ticket outcome run) s =
        .next (s.withPart (failed 3 run.toNat .service
          (doubtful (joinNotice s.part.ntu .sawFault (some st) (.slot o.slot)))))))
    ∧ (∀ ms, s.part.cpl[st].stop = .running ms → exec (.stopTimeout st) s =
        .next (s.withPart (failed 4 0 .service
          (joinNotice (doubtful s.part.ntu) .sawSilent (some st) (.slot o.slot)))))
    ∧ (s.part.cpl[st].stop = .stopped → exec (.stopTimeout st) s = .next s)

/-- R79, R80, R84: an order whose chain is claimed and granted behind an active order of a station of the cell computer
moves on-deck and is staged with a CUT STAGE of the next ticket number; a take-whole order is not staged (R77). R81, R82,
R84 to R86, R25, R104, R151, R156: a RESUME that empties the hold set of an IDLE station promotes its on-deck order: a
staged one with a CUT GO of its ticket number, another with a CUT RUN of the next; the buffer is flushed, the usage is
the order's, its record CUTTING, its overrun timer loaded; the station is RUNNING, or under a hold condition HELD with
WATER, the timer paused and a SAW PAUSE behind the program. R83, R93: a take-whole order on-deck completes DONE in the
event that promotes it, and the station stays IDLE. Log 10: its CUT RECORD, of the examination that the RESUME asks for,
enters behind the COMMAND ANSWER. Log 8: the counter of chains. Log 18: the pass, the water used and the actual run of
an order are 0 at its promotion. -/
def Obligations.OnDeckOrdersAreStagedAndPromoted : Prop :=
  (∀ (dst src : Byte) (f : OrderFields) (o : Order) (st : StationNo) (s : State) (r : Ring) (n : SlabNo) (slab : Slab)
      (t : Ticket) (number : Byte) (staged : Option Byte) (frames : List Frame),
    Quiet s.part → RoomD 1 s.part → dst.toNat ≤ 63 → src.toNat ≤ 62 → stationOf s.part dst = some st →
    orderOf f = some o → o.chain = false → r = s.part.oqu[st] → r.producer = r.consumer → r.chains = [] →
    s.part.cpl[st].onDeck = none → s.part.cpl[st].active ≠ none → s.part.cpl[st].frames = [] →
    s.part.stc[st].state ≠ .service → s.part.stc[st].owner = .cell → s.part.jau.jobs[o.job].state = .opened →
    o.source = .slab n → s.part.stk.slabs[n] = some slab → slab.state = .stock → cuttable s.part.lck n.val = true →
    ticketOf s.part.classes[s.part.map[st].cls] o.source slab.stone o.len o.wid = some t →
    usedCount s.part.stk + s.part.stk.reservations + t.planned ≤ 512 →
    t.water ≤ s.part.wbu.consts.capacity - s.part.wbu.consts.lowMark →
    s.part.wbu.freshness = .live → s.part.wbu.quality = .clear → s.part.wbu.band ≠ .low →
    t.water ≤ s.part.wbu.level - s.part.wbu.consts.lowMark - s.part.wbu.reserved →
    ((t.rip = true ∨ t.cross = true) ∧ number = s.part.cpl[st].ticketNo + 1 ∧ staged = some number
        ∧ frames = [⟨BitVec.ofNat 8 s.part.map[st].node, 1, 0x42, programBytes number t⟩]
      ∨ t.rip = false ∧ t.cross = false ∧ number = s.part.cpl[st].ticketNo ∧ staged = none ∧ frames = []) →
    exec (.cutOrder dst src f) s = .next (s.withPart (Part.sentD
      { s.part with
        oqu := s.part.oqu.set st
          { r with
            slots := r.slots.set r.producer none
            producer := r.producer + 1
            consumer := r.producer + 1
            nextChain := r.nextChain + 1 }
        stk := ⟨s.part.stk.slabs.set n (some { slab with state := .reserved ⟨st, r.producer⟩ }),
          s.part.stk.reservations + t.planned⟩
        jau := { s.part.jau with
          jobs := s.part.jau.jobs.set o.job
            { s.part.jau.jobs[o.job] with outstanding := s.part.jau.jobs[o.job].outstanding + 1 } }
        wbu := { s.part.wbu with
          waitList := s.part.wbu.waitList.set st none
          pointer := st
          reserved := s.part.wbu.reserved + t.water }
        cpl := s.part.cpl.set st
          { s.part.cpl[st] with
            onDeck := some
              ⟨⟨o, r.producer, .onDeck, r.nextChain, 1, some t, t.water, t.planned, none, false⟩, staged⟩
            ticketNo := number } } frames)))
  ∧ ∀ (dst src : Byte) (st : StationNo) (s : State) (c : Pipeline) (d : OnDeck) (o : Order) (t : Ticket) (n : SlabNo)
      (slab : Slab) (x : Posting) (answer : Frame),
    Quiet s.part → RoomU 2 s.part → RoomD 2 s.part → dst.toNat ≤ 63 → src.toNat ≤ 62 →
    stationOf s.part dst = some st → s.part.stc[st] = ⟨.idle, .cell, ⟨false, false, true⟩, none⟩ → c = s.part.cpl[st] →
    c.active = none → c.frames = [] → c.onDeck = some d → o = d.order.order → d.order.ticket = some t →
    d.order.sourceRecord = some n → s.part.stk.slabs[n] = some slab → slab.state = .reserved ⟨st, d.order.slot⟩ →
    s.part.psu.freeze ≠ .frozen → s.part.oqu[st].headSpent = false → s.part.oqu[st].headAdmitted = none →
    x = s.part.psu.posts[st] → answer = ⟨0, 1, 0x86, [BitVec.ofNat 8 st.val, 2, 0]⟩ →
    (∀ (number : Byte) (program pause : Frame) (limit : Nat) (promoted : StationCtx → Byte → Timer → Part),
      (t.rip = true ∨ t.cross = true) →
      limit = (t.tEst * s.part.pipe.percent + 99) / 100 + s.part.pipe.grace * 1000 →
      pause = ⟨BitVec.ofNat 8 s.part.map[st].node, 1, 0x45, []⟩ →
      (∀ context last timer, promoted context last timer =
        { s.part with
          stk := ⟨s.part.stk.slabs.set n (some { slab with state := .cutting ⟨st, d.order.slot⟩ }),
            s.part.stk.reservations⟩
          stc := s.part.stc.set st context
          psu := { s.part.psu with
            posts := s.part.psu.posts.set st
              { x with
                target := ⟨o.job, match o.mode with | .production => .production | .rework => .rework⟩
                covered := if x.buffer = [] then x.covered else x.buffer.length
                timer := if x.buffer = [] then x.timer else .stopped } }
          cpl := s.part.cpl.set st
            { c with
              onDeck := none
              active := some ⟨{ d.order with state := .active }, number, 0, none, 0, 0⟩
              ticketNo := last
              overrun := timer } }) →
      ((d.staged = some number ∧ program = ⟨BitVec.ofNat 8 s.part.map[st].node, 1, 0x43, [number]⟩)
        ∨ (d.staged = none ∧ number = c.ticketNo + 1
          ∧ program = ⟨BitVec.ofNat 8 s.part.map[st].node, 1, 0x41, programBytes number t⟩)) →
      ∀ last : Byte, last = (if d.staged = none then c.ticketNo + 1 else c.ticketNo) →
        (s.part.wbu.band ≠ .low → s.part.wbu.quality = .clear →
          exec (.resume dst src) s = .next (s.withPart (Part.sentU (Part.sentD
            (promoted ⟨.running, .cell, ⟨false, false, false⟩, none⟩ last (.running limit)) [program]) [answer])))
        ∧ ((s.part.wbu.band = .low ∨ s.part.wbu.quality = .upset) →
          exec (.resume dst src) s = .next (s.withPart (Part.sentU (Part.sentD
            (promoted ⟨.held, .cell, ⟨true, false, false⟩, none⟩ last (.paused limit)) [program, pause]) [answer]))))
    ∧ (∀ (split : Split) (j : Job) (w : Wbu), t.rip = false → t.cross = false → t.remA = none → t.remB = none →
        (∀ y ∈ s.part.oqu[st].openOrders, y.chain ≠ d.order.chain) → o.summaryNow = false → x.buffer.length < 8 →
        split = splitOf t slab.basis → j = s.part.jau.jobs[o.job] →
        w = { s.part.wbu with reserved := s.part.wbu.reserved - d.order.remaining } → NoneFits w →
        exec (.resume dst src) s = .next (s.withPart (Part.sentU
          { s.part with
            stk := ⟨s.part.stk.slabs.set n none, s.part.stk.reservations - d.order.planned⟩
            stc := s.part.stc.set st ⟨.idle, .cell, ⟨false, false, false⟩, none⟩
            wbu := w
            psu := { s.part.psu with
              posts := s.part.psu.posts.set st
                ⟨x.target,
                  x.buffer ++ [⟨⟨o.job, match o.mode with | .production => .production | .rework => .rework⟩, true, 0, 0,
                    0, split.material, split.waste⟩],
                  x.buffer.length + 1, .stopped⟩ }
            jau := { s.part.jau with
              jobs := s.part.jau.jobs.set o.job
                { j with outstanding := j.outstanding - 1, pending := j.pending + 1 } }
            cpl := s.part.cpl.set st { c with onDeck := none } }
          [answer,
            ⟨0, 1, 0x81, num8 st.val ++ num8 d.order.slot.val ++ num16 o.tag ++ num8 o.job.val ++ num8 0
              ++ num16 n.val ++ num16 o.len ++ num16 o.wid ++ num8 t.passes ++ num32 t.tEst ++ List.replicate 8 0
              ++ num32 split.material ++ num32 split.waste ++ num32 t.areaKerf ++ num32 t.areaScrap⟩])))

/-! ### Resets and invariants -/

/-- R18, R20, R22, R40, R62, R78, R89, R115, R118, R128, R131, R159, R164, R181, R193: POWER_UP gives every block its
power-up values, whatever the part was before; LOCKEN low disables the lock. Log 3: both pins' levels are operands.
Log 18: R181 gives the 0 of counts, reference and accumulators for job 0, and in a FREE job they have no meaning. -/
def Obligations.PowerUpGivesTheStatedValues : Prop :=
  ∀ (locken yardkey : Level) (s : State), ∃ p : Part, exec (.powerUp locken yardkey) s = .next (s.withPart p)
    ∧ (p.portU.queue = [] ∧ p.portU.dropped = 0 ∧ p.portU.sending = false ∧ p.portU.waiting = [] ∧ p.portU.received = [])
    ∧ (p.portD.queue = [] ∧ p.portD.dropped = 0 ∧ p.portD.sending = false ∧ p.portD.waiting = [] ∧ p.portD.received = [])
    ∧ (p.portU.receiver = .settling ∧ p.portD.receiver = .settling)
    ∧ (p.mgu.queue = [] ∧ p.mgu.inProgress = none ∧ p.mgu.cause = .powerUp)
    ∧ (∀ st : StationNo, p.map[st] = ⟨0, 0, false⟩ ∧ p.stc[st] = ⟨.service, .cell, ⟨false, false, false⟩, none⟩)
    ∧ (∀ st : StationNo, AtRest p st ∧ p.oqu[st].producer = 0 ∧ (∀ i : SlotNo, p.oqu[st].slots[i] = none)
        ∧ p.cpl[st].ticketNo = 0 ∧ p.cpl[st].overrun = .stopped ∧ p.cpl[st].stop = .stopped)
    ∧ (∀ c : ClassNo, p.classes[c] = ⟨4, 12, 40, Vector.replicate 8 20, 300, 150⟩)
    ∧ p.pipe = ⟨200, 60, 10⟩ ∧ (∀ n : SlabNo, p.stk.slabs[n] = none) ∧ p.stk.reservations = 0
    ∧ (p.lck.low = 1 ∧ p.lck.high = 0 ∧ p.lck.invert = false ∧ p.lck.hard = false
        ∧ (p.lck.disabled = true ↔ locken = .low) ∧ p.lck.key = yardkey ∧ p.lck.settle = .stopped)
    ∧ p.wbu.consts = ⟨0, 0, 0, 0, 0, 40, 5, 0, 0⟩
    ∧ (p.wbu.level = 0 ∧ p.wbu.turbidity = 0 ∧ p.wbu.quality = .clear ∧ p.wbu.freshness = .stale ∧ p.wbu.band = .low
        ∧ p.wbu.valve = .closed ∧ p.wbu.sampleTimer = .stopped ∧ p.wbu.allowance = 0 ∧ p.wbu.reserved = 0 ∧ NoneWaits p
        ∧ p.wbu.pointer = 7)
    ∧ (∀ st : StationNo, p.psu.posts[st] = ⟨⟨0, .service⟩, [], 0, .stopped⟩)
    ∧ (p.psu.freeze = .thawed ∧ p.psu.freezeTimer = .stopped ∧ p.psu.period = 20 ∧ p.psu.limit = 120)
    ∧ (∀ n : JobNo, p.jau.jobs[n].state = (if n = 0 then .opened else .free) ∧ p.jau.jobs[n].reference = 0
        ∧ p.jau.jobs[n].outstanding = 0 ∧ p.jau.jobs[n].pending = 0 ∧ p.jau.jobs[n].production = ⟨0, 0, 0, 0, 0⟩ ∧ p.jau.jobs[n].rework = ⟨0, 0, 0, 0, 0⟩
        ∧ p.jau.jobs[n].service = ⟨0, 0, 0, 0, 0⟩)
    ∧ (p.jau.waterRate = 0 ∧ p.jau.runRate = 0 ∧ p.jau.energyRate = 0)
    ∧ (p.ntu.entries = [] ∧ p.ntu.outstanding = false ∧ p.ntu.period = 10 ∧ p.ntu.timer = .running 1000
        ∧ p.ntu.number = 0)

/-- R18, R22, R40, R78, R98, R116, R118, R131, R164, R182, R193: RESETn asserted keeps the tables, the rates, the
allowance, the jobs' figures and the slab records, of which RESERVED ones return to STOCK and CUTTING ones are
DOUBTFUL; a CLOSING job is CLOSED and no job has a count; the stations, rings, pipelines, buffers, tank state and
notices are as at power-up, and only a frame being sent stays in a queue. On release the part sends a SAW STOP to
every mapped station and a MAKEUP CLOSE to the plant, and samples YARDKEY. Log 15: no timer runs in reset. Log 10: the
SAW STOPs are queued from station 0 to 7, and the MAKEUP CLOSE behind them. -/
def Obligations.WarmResetKeepsTablesAndStock : Prop :=
  (∀ s : State, s.part.inReset = false → ∃ p : Part, exec .resetnAssert s = .next (s.withPart p)
    ∧ p.inReset = true ∧ p.mgu = ⟨[], none, .warm⟩
    ∧ (p.map = s.part.map ∧ p.classes = s.part.classes ∧ p.pipe = s.part.pipe ∧ p.lck.low = s.part.lck.low
        ∧ p.lck.high = s.part.lck.high ∧ p.lck.invert = s.part.lck.invert ∧ p.lck.hard = s.part.lck.hard
        ∧ p.lck.disabled = s.part.lck.disabled ∧ p.wbu.consts = s.part.wbu.consts
        ∧ p.wbu.allowance = s.part.wbu.allowance ∧ p.psu.period = s.part.psu.period ∧ p.psu.limit = s.part.psu.limit
        ∧ p.jau.waterRate = s.part.jau.waterRate ∧ p.jau.runRate = s.part.jau.runRate
        ∧ p.jau.energyRate = s.part.jau.energyRate ∧ p.ntu.period = s.part.ntu.period)
    ∧ (∀ st : StationNo, AtRest p st ∧ p.oqu[st].producer = 0 ∧ (∀ i : SlotNo, p.oqu[st].slots[i] = none)
        ∧ p.cpl[st].ticketNo = 0 ∧ p.cpl[st].overrun = .stopped ∧ p.cpl[st].stop = .stopped
        ∧ p.stc[st] = ⟨.service, .cell, ⟨false, false, false⟩, none⟩ ∧ p.psu.posts[st] = ⟨⟨0, .service⟩, [], 0, .stopped⟩)
    ∧ p.stk.reservations = 0
    ∧ (∀ n : SlabNo, s.part.stk.slabs[n] = none → p.stk.slabs[n] = none)
    ∧ (∀ (n : SlabNo) (r : Slab), s.part.stk.slabs[n] = some r → p.stk.slabs[n] = some { r with
        state := match r.state with
          | .stock => .stock
          | .reserved _ => .stock
          | .cutting _ => .doubtful
          | .doubtful => .doubtful })
    ∧ (∀ n : JobNo, p.jau.jobs[n] = { s.part.jau.jobs[n] with
        state := if s.part.jau.jobs[n].state = .closing then .closed else s.part.jau.jobs[n].state
        outstanding := 0
        pending := 0 })
    ∧ (p.wbu.level = 0 ∧ p.wbu.turbidity = 0 ∧ p.wbu.quality = .clear ∧ p.wbu.freshness = .stale ∧ p.wbu.band = .low
        ∧ p.wbu.valve = .closed ∧ p.wbu.sampleTimer = .stopped ∧ p.wbu.reserved = 0 ∧ NoneWaits p ∧ p.wbu.pointer = 7)
    ∧ (p.psu.freeze = .thawed ∧ p.psu.freezeTimer = .stopped ∧ p.ntu.entries = [] ∧ p.ntu.outstanding = false
        ∧ p.ntu.timer = .stopped ∧ p.ntu.number = 0)
    ∧ (p.portU.dropped = 0 ∧ p.portD.dropped = 0 ∧ p.portU.receiver = .settling ∧ p.portD.receiver = .settling
        ∧ p.portU.waiting = [] ∧ p.portD.waiting = [] ∧ p.portU.received = [] ∧ p.portD.received = [])
    ∧ p.portU.queue = (if s.part.portU.sending then s.part.portU.queue.take 1 else [])
    ∧ p.portD.queue = (if s.part.portD.sending then s.part.portD.queue.take 1 else []))
  ∧ ∀ s : State, s.part.inReset = true → s.part.mgu.queue = [] → s.part.mgu.inProgress = none →
      s.part.portU.waiting = [] → s.part.portD.waiting = [] → s.part.portD.queue.length ≤ 7 →
      (∀ st : StationNo, AtRest s.part st) →
      exec .resetnRelease s = .next (s.withPart (Part.sentD
        { s.part with
          inReset := false
          lck := { s.part.lck with key := s.part.yardkey, settle := .stopped }
          ntu := { s.part.ntu with
            timer := if s.part.ntu.period = 0 then .stopped else .running (s.part.ntu.period * 100) } }
        ((allStations.filter fun st => decide (s.part.map[st].node ≠ 0) && s.part.map[st].enabled).map
            (fun st => ⟨BitVec.ofNat 8 s.part.map[st].node, 1, 0x47, []⟩)
          ++ if s.part.wbu.consts.plantNode = 0 then []
            else [⟨BitVec.ofNat 8 s.part.wbu.consts.plantNode, 1, 0x52, []⟩])))

/-- R17, R19, R30, R39, R150, R165, R194: LINE RESET: every hold set is emptied, every station is the cell computer's and in
SERVICE, the wait list is emptied and a freeze ends; with empty buffers LINE_RESET_DONE is raised and DONE answered in
the same event. R19: the frames that port D had received and not yet handed over are dropped and counted there. At most
one station has orders. R99, R95, R117, R183: its active order closes LINE_RESET: its saw is sent a SAW STOP, its record
is DOUBTFUL, which is noticed, and its claim is undone. R61: its order on-deck, with a CUT UNSTAGE when it is staged, and
an order QUEUED in its ring close LINE_RESET too, and every record enters before the answer: each of the three alone,
and the three together, where the active order's record is formed first, then the on-deck order's, then the ring
order's, and an on-deck follow-on of the active order closes LINE_RESET like any other. R165: a station's buffered
entries are covered by a drain, and the LINE RESET stays in progress until its last application, which completes it.
LINE_RESET_COMPLETE completes a line reset whose parts have completed. Log 10: the order in which the notices join, and
that of the SAW STOP and the CUT UNSTAGE. -/
def Obligations.LineResetEndsWithEveryStationInService : Prop :=
  (∀ (tag : Byte) (s : State) (st : StationNo) (reset : Stk → Jau → Nat → Vector Pipeline 8 → Vector Ring 8
      → Option StationNo → Vector Posting 8 → Ntu → Part),
    Quiet { s.part with portD := { s.part.portD with received := [] } } → s.part.ntu.outstanding = true →
    s.part.portU.dropped ≤ 65535 → (∀ y : StationNo, s.part.psu.posts[y].covered = 0) →
    (∀ y : StationNo, y ≠ st → AtRest s.part y ∧ s.part.psu.posts[y].buffer = []
      ∧ ∀ i : SlotNo, s.part.oqu[y].slots[i] = none) →
    (∀ stk jau reserved cpl oqu closed posts u, reset stk jau reserved cpl oqu closed posts u =
      { s.part with
        portD := { s.part.portD with
          received := []
          dropped := min 65535 (s.part.portD.dropped + s.part.portD.received.length) }
        stk := stk, jau := jau, cpl := cpl, oqu := oqu
        stc := Vector.ofFn fun y =>
          ⟨.service, .cell, ⟨false, false, false⟩, if closed = some y then none else s.part.stc[y].behind⟩
        wbu := { s.part.wbu with waitList := Vector.replicate 8 none, reserved := reserved }
        psu := { s.part.psu with
          posts := posts
          freeze := if s.part.psu.freeze = .frozen then .thawed else s.part.psu.freeze
          freezeTimer := if s.part.psu.freeze = .frozen then .stopped else s.part.psu.freezeTimer }
        ntu := u }) →
    (AtRest s.part st → (∀ i : SlotNo, s.part.oqu[st].slots[i] = none) → s.part.psu.posts[st].buffer = [] →
      RoomU 1 s.part →
      exec (.lineReset tag) s = .next (s.answer (reset s.part.stk s.part.jau s.part.wbu.reserved s.part.cpl s.part.oqu
        none s.part.psu.posts (joinNotice s.part.ntu .lineResetDone none .none)) 0x02 tag .done []))
    ∧ (AtRest s.part st → (∀ i : SlotNo, s.part.oqu[st].slots[i] = none) → s.part.psu.posts[st].buffer ≠ [] →
      exec (.lineReset tag) s = .next (s.withPart
        { (reset s.part.stk s.part.jau s.part.wbu.reserved s.part.cpl s.part.oqu none
            (s.part.psu.posts.set st
              { s.part.psu.posts[st] with covered := s.part.psu.posts[st].buffer.length, timer := .stopped })
            s.part.ntu) with
          mgu := { s.part.mgu with inProgress := some ⟨0x02, tag, .resetting [st]⟩ } }))
    ∧ ∀ (record : OrderRec → Half → Nat → Nat → Nat → Frame) (lower : Job → Job) (c : Pipeline) (r : Ring),
        s.part.psu.posts[st].buffer = [] → c = s.part.cpl[st] → c.frames = [] → r = s.part.oqu[st] →
        RoomU 2 s.part → RoomD 1 s.part →
        (∀ x source passes time water, record x source passes time water =
          ⟨0, 1, 0x81, num8 st.val ++ num8 x.slot.val ++ num16 x.order.tag ++ num8 x.order.job.val ++ num8 5
            ++ put16 source ++ num16 x.order.len ++ num16 x.order.wid ++ num8 passes ++ num32 time ++ num32 0
            ++ num32 water ++ List.replicate 16 0⟩) →
        (∀ j, lower j = { j with
          outstanding := j.outstanding - 1
          state := if j.state = .closing ∧ j.outstanding - 1 = 0 ∧ j.pending = 0 then .closed else j.state }) →
        (∀ (a : Active) (o : OrderRec) (t : Ticket) (n : SlabNo) (slab : Slab) (h : Holder),
          c.active = some a → c.onDeck = none → r.producer = r.consumer → r.chains = [] →
          (∀ i : SlotNo, r.slots[i] = none) → o = a.order → o.state = .active → o.ticket = some t →
          o.sourceRecord = some n → s.part.stk.slabs[n] = some slab → slab.state = .cutting h →
          exec (.lineReset tag) s = .next (s.answer (Part.sentU (Part.sentD
            (reset
              ⟨s.part.stk.slabs.set n (some { slab with state := .doubtful }), s.part.stk.reservations - o.planned⟩
              { s.part.jau with
                jobs := s.part.jau.jobs.set o.order.job (lower s.part.jau.jobs[o.order.job]) }
              (s.part.wbu.reserved - o.remaining)
              (s.part.cpl.set st { c with active := none, overrun := .stopped, stop := .stopped }) s.part.oqu
              (some st)
              (s.part.psu.posts.set st { s.part.psu.posts[st] with target := ⟨0, .service⟩ })
              (joinNotice (joinNotice s.part.ntu .slabDoubtful (some st) (.slab n)) .lineResetDone none .none))
            [⟨BitVec.ofNat 8 s.part.map[st].node, 1, 0x47, []⟩])
            [record o (BitVec.ofNat 16 n.val) t.passes t.tEst a.waterUsed]) 0x02 tag .done []))
        ∧ (∀ (d : OnDeck) (o : OrderRec) (t : Ticket) (n : SlabNo) (slab : Slab),
          c.active = none → c.onDeck = some d → r.producer = r.consumer → r.chains = [] →
          (∀ i : SlotNo, r.slots[i] = none) → o = d.order → o.state = .onDeck → o.ticket = some t →
          o.order.source = .slab n → s.part.stk.slabs[n] = some slab → slab.state = .reserved ⟨st, o.slot⟩ →
          exec (.lineReset tag) s = .next (s.answer (Part.sentU (Part.sentD
            (reset
              ⟨s.part.stk.slabs.set n (some { slab with state := .stock }), s.part.stk.reservations - o.planned⟩
              { s.part.jau with
                jobs := s.part.jau.jobs.set o.order.job (lower s.part.jau.jobs[o.order.job]) }
              (s.part.wbu.reserved - o.remaining)
              (s.part.cpl.set st { c with onDeck := none }) s.part.oqu none s.part.psu.posts
              (joinNotice s.part.ntu .lineResetDone none .none))
            (match d.staged with
              | some number => [⟨BitVec.ofNat 8 s.part.map[st].node, 1, 0x44, [number]⟩]
              | none => []))
            [record o (BitVec.ofNat 16 n.val) t.passes t.tEst 0]) 0x02 tag .done []))
        ∧ (∀ x : OrderRec, c.active = none → c.onDeck = none → r.producer = r.consumer + 1 →
          r.slots[r.consumer] = some x → (∀ i : SlotNo, i ≠ r.consumer → r.slots[i] = none) → x.slot = r.consumer →
          x.state = .queued → x.ticket = none →
          exec (.lineReset tag) s = .next (s.answer (Part.sentU
            (reset s.part.stk s.part.jau s.part.wbu.reserved s.part.cpl
              (s.part.oqu.set st
                { r with slots := r.slots.set r.consumer none, consumer := r.consumer + 1, chains := [] })
              none s.part.psu.posts (joinNotice s.part.ntu .lineResetDone none .none))
            [record x (match x.order.source with | .slab n => BitVec.ofNat 16 n.val | .followOn => 0xFFFF) 0 0 0])
            0x02 tag .done []))
        ∧ ∀ (a : Active) (d : OnDeck) (oa od x : OrderRec) (ta td : Ticket) (n : SlabNo) (slab : Slab) (h : Holder)
            (slabs : Vector (Option Slab) 512) (source : Half) (jobs : Vector Job 64),
          RoomU 4 s.part → RoomD 2 s.part → c.active = some a → c.onDeck = some d → r.producer = r.consumer + 1 →
          r.slots[r.consumer] = some x → (∀ i : SlotNo, i ≠ r.consumer → r.slots[i] = none) → x.slot = r.consumer →
          x.state = .queued → x.ticket = none → oa = a.order → oa.state = .active → oa.ticket = some ta →
          oa.sourceRecord = some n → s.part.stk.slabs[n] = some slab → slab.state = .cutting h →
          od = d.order → od.state = .onDeck → od.ticket = some td →
          ((∃ (m : SlabNo) (next : Slab), m ≠ n ∧ od.order.source = .slab m ∧ s.part.stk.slabs[m] = some next
              ∧ next.state = .reserved ⟨st, od.slot⟩ ∧ source = BitVec.ofNat 16 m.val
              ∧ slabs = (s.part.stk.slabs.set n (some { slab with state := .doubtful })).set m
                  (some { next with state := .stock }))
            ∨ od.order.source = .followOn ∧ od.sourceRecord = none ∧ source = 0xFFFF
              ∧ slabs = s.part.stk.slabs.set n (some { slab with state := .doubtful })) →
          jobs = s.part.jau.jobs.set oa.order.job (lower s.part.jau.jobs[oa.order.job]) →
          exec (.lineReset tag) s = .next (s.answer (Part.sentU (Part.sentD
            (reset ⟨slabs, s.part.stk.reservations - oa.planned - od.planned⟩
              { s.part.jau with jobs := jobs.set od.order.job (lower jobs[od.order.job]) }
              (s.part.wbu.reserved - oa.remaining - od.remaining)
              (s.part.cpl.set st
                { c with active := none, onDeck := none, overrun := .stopped, stop := .stopped })
              (s.part.oqu.set st
                { r with slots := r.slots.set r.consumer none, consumer := r.consumer + 1, chains := [] })
              (some st)
              (s.part.psu.posts.set st { s.part.psu.posts[st] with target := ⟨0, .service⟩ })
              (joinNotice (joinNotice s.part.ntu .slabDoubtful (some st) (.slab n)) .lineResetDone none .none))
            (⟨BitVec.ofNat 8 s.part.map[st].node, 1, 0x47, []⟩ ::
              match d.staged with
              | some number => [⟨BitVec.ofNat 8 s.part.map[st].node, 1, 0x44, [number]⟩]
              | none => []))
            [record oa (BitVec.ofNat 16 n.val) ta.passes ta.tEst a.waterUsed, record od source td.passes td.tEst 0,
              record x (match x.order.source with | .slab n => BitVec.ofNat 16 n.val | .followOn => 0xFFFF) 0 0 0])
            0x02 tag .done []))
  ∧ (∀ (code tag : Byte) (s : State), s.part.inReset = false → s.part.mgu.queue = [] →
      s.part.mgu.inProgress = some ⟨code, tag, .resetting []⟩ → s.part.portU.waiting = [] → s.part.portD.waiting = [] →
      RoomU 1 s.part → s.part.ntu.outstanding = true →
      (∀ st : StationNo, s.part.stc[st].state = .service ∧ s.part.cpl[st].frames = []
        ∧ ∀ i : SlotNo, s.part.oqu[st].slots[i] = none) →
      exec .lineResetComplete s = .next (s.answer
        { s.part with
          mgu := { s.part.mgu with inProgress := none }
          ntu := joinNotice s.part.ntu .lineResetDone none .none } code tag .done []))
  ∧ ∀ (code tag : Byte) (s : State) (st : StationNo) (x : Posting) (y : Entry) (j : Job), s.part.inReset = false →
      s.part.mgu.queue = [] → s.part.mgu.inProgress = some ⟨code, tag, .resetting [st]⟩ →
      s.part.portU.waiting = [] → s.part.portD.waiting = [] → RoomU 1 s.part → s.part.ntu.outstanding = true →
      (∀ st : StationNo, s.part.stc[st].state = .service ∧ s.part.cpl[st].frames = []
        ∧ ∀ i : SlotNo, s.part.oqu[st].slots[i] = none) →
      s.part.psu.freeze ≠ .frozen → x = s.part.psu.posts[st] → x.buffer = [y] → x.covered = 1 →
      j = s.part.jau.jobs[y.target.job] →
      ((j.acc y.target.ctx).saturatedBy y) = false →
      exec (.drainApplication st) s = .next (s.answer
        { s.part with
          psu := { s.part.psu with posts := s.part.psu.posts.set st ⟨x.target, [], 0, x.timer⟩ }
          jau := { s.part.jau with jobs := s.part.jau.jobs.set y.target.job (j.apply y) }
          mgu := { s.part.mgu with inProgress := none }
          ntu := joinNotice s.part.ntu .lineResetDone none .none } code tag .done [])

/-- R62, R89, R118, R128, R159, R179, R191 and section 2.1: every step keeps every table in its range, and two mapped
stations apart. -/
def Obligations.TablesStayInRange : Prop :=
  ∀ s t : State, SettingsInRange s.part.settings → step s = .next t → SettingsInRange t.part.settings

/-- R144, R145: every step keeps the law of the valve. -/
def Obligations.ValveStaysLegal : Prop :=
  ∀ s t : State, ValveLegal s.part → step s = .next t → ValveLegal t.part

/-- R181: every step keeps the house job OPEN. -/
def Obligations.HouseJobStaysOpen : Prop :=
  ∀ s t : State, HouseOpen s.part → step s = .next t → HouseOpen t.part

/-- The state after reset meets the three invariants. -/
def Obligations.ResetMeetsTheInvariants : Prop :=
  SettingsInRange State.reset.part.settings ∧ ValveLegal State.reset.part ∧ HouseOpen State.reset.part
end

