-- ==== Sys2Proof/Laws/State.lean ====
section
/-! SUPPORT. One lemma for each field of `Part` under each update of one place, true by rfl, so that no proof unfolds a
record update; and the reads of fixed tables after an update. -/

namespace Sys2Proof.Machine

/-! ### Fixed tables -/

@[simp] theorem upd_val {α : Type} {n : Nat} (v : Vector α n) (i : Fin n) (f : α → α) (h : (i : Nat) < n) :
    (upd v i f)[(i : Nat)] = f (v[(i : Nat)]) := by
  simp [upd]

theorem upd_same {α : Type} {n : Nat} (v : Vector α n) (i : Fin n) (f : α → α) : (upd v i f)[i] = f v[i] := by
  simp

theorem upd_other {α : Type} {n : Nat} (v : Vector α n) (i j : Fin n) (f : α → α) (h : i ≠ j) :
    (upd v i f)[j] = v[j] := by
  have : (i : Nat) ≠ j := fun e => h (Fin.ext e)
  simp [upd, this]

theorem upd_get {α : Type} {n : Nat} (v : Vector α n) (i j : Fin n) (f : α → α) :
    (upd v i f)[j] = if i = j then f v[j] else v[j] := by
  by_cases h : i = j
  · subst h; simp
  · simp only [upd_other v i j f h, h, if_false]

/-- An update that changes nothing. -/
theorem upd_id {α : Type} {n : Nat} (v : Vector α n) (i : Fin n) (f : α → α) (h : f v[i] = v[i]) : upd v i f = v := by
  apply Vector.ext
  intro j hj
  by_cases e : (i : Nat) = j
  · subst e; simpa [upd] using h
  · simp [upd, e]

@[simp] theorem updAll_get {α β : Type} {n : Nat} (v : Vector α n) (f : α → β) (i : Nat) (h : i < n) :
    (updAll v f)[i] = f v[i] := by
  simp [updAll]

theorem mem_allStations : ∀ st : StationNo, st ∈ allStations := by decide

/-! ### Events in progress -/

@[simp] theorem Ev.map_p (e : Ev) (f : Part → Part) : (e.map f).p = f e.p := rfl
@[simp] theorem Ev.map_todo (e : Ev) (f : Part → Part) : (e.map f).todo = e.todo := rfl
@[simp] theorem Ev.later_p (e : Ev) (t : Task) : (e.later t).p = e.p := rfl
@[simp] theorem Ev.later_todo (e : Ev) (t : Task) : (e.later t).todo = e.todo ++ [t] := rfl

/-! ### Updates of one place -/

@[simp] theorem Part.upMap_inReset (p : Part) (st : StationNo) (f : MapEntry → MapEntry) : (p.upMap st f).inReset = p.inReset := rfl
@[simp] theorem Part.upMap_yardkey (p : Part) (st : StationNo) (f : MapEntry → MapEntry) : (p.upMap st f).yardkey = p.yardkey := rfl
@[simp] theorem Part.upMap_portU (p : Part) (st : StationNo) (f : MapEntry → MapEntry) : (p.upMap st f).portU = p.portU := rfl
@[simp] theorem Part.upMap_portD (p : Part) (st : StationNo) (f : MapEntry → MapEntry) : (p.upMap st f).portD = p.portD := rfl
@[simp] theorem Part.upMap_mgu (p : Part) (st : StationNo) (f : MapEntry → MapEntry) : (p.upMap st f).mgu = p.mgu := rfl
@[simp] theorem Part.upMap_map (p : Part) (st : StationNo) (f : MapEntry → MapEntry) : (p.upMap st f).map = upd p.map st f := rfl
@[simp] theorem Part.upMap_stc (p : Part) (st : StationNo) (f : MapEntry → MapEntry) : (p.upMap st f).stc = p.stc := rfl
@[simp] theorem Part.upMap_oqu (p : Part) (st : StationNo) (f : MapEntry → MapEntry) : (p.upMap st f).oqu = p.oqu := rfl
@[simp] theorem Part.upMap_classes (p : Part) (st : StationNo) (f : MapEntry → MapEntry) : (p.upMap st f).classes = p.classes := rfl
@[simp] theorem Part.upMap_cpl (p : Part) (st : StationNo) (f : MapEntry → MapEntry) : (p.upMap st f).cpl = p.cpl := rfl
@[simp] theorem Part.upMap_pipe (p : Part) (st : StationNo) (f : MapEntry → MapEntry) : (p.upMap st f).pipe = p.pipe := rfl
@[simp] theorem Part.upMap_stk (p : Part) (st : StationNo) (f : MapEntry → MapEntry) : (p.upMap st f).stk = p.stk := rfl
@[simp] theorem Part.upMap_lck (p : Part) (st : StationNo) (f : MapEntry → MapEntry) : (p.upMap st f).lck = p.lck := rfl
@[simp] theorem Part.upMap_wbu (p : Part) (st : StationNo) (f : MapEntry → MapEntry) : (p.upMap st f).wbu = p.wbu := rfl
@[simp] theorem Part.upMap_psu (p : Part) (st : StationNo) (f : MapEntry → MapEntry) : (p.upMap st f).psu = p.psu := rfl
@[simp] theorem Part.upMap_jau (p : Part) (st : StationNo) (f : MapEntry → MapEntry) : (p.upMap st f).jau = p.jau := rfl
@[simp] theorem Part.upMap_ntu (p : Part) (st : StationNo) (f : MapEntry → MapEntry) : (p.upMap st f).ntu = p.ntu := rfl
@[simp] theorem Part.upMap_picks (p : Part) (st : StationNo) (f : MapEntry → MapEntry) : (p.upMap st f).picks = p.picks := rfl

@[simp] theorem Part.upStc_inReset (p : Part) (st : StationNo) (f : StationCtx → StationCtx) : (p.upStc st f).inReset = p.inReset := rfl
@[simp] theorem Part.upStc_yardkey (p : Part) (st : StationNo) (f : StationCtx → StationCtx) : (p.upStc st f).yardkey = p.yardkey := rfl
@[simp] theorem Part.upStc_portU (p : Part) (st : StationNo) (f : StationCtx → StationCtx) : (p.upStc st f).portU = p.portU := rfl
@[simp] theorem Part.upStc_portD (p : Part) (st : StationNo) (f : StationCtx → StationCtx) : (p.upStc st f).portD = p.portD := rfl
@[simp] theorem Part.upStc_mgu (p : Part) (st : StationNo) (f : StationCtx → StationCtx) : (p.upStc st f).mgu = p.mgu := rfl
@[simp] theorem Part.upStc_map (p : Part) (st : StationNo) (f : StationCtx → StationCtx) : (p.upStc st f).map = p.map := rfl
@[simp] theorem Part.upStc_stc (p : Part) (st : StationNo) (f : StationCtx → StationCtx) : (p.upStc st f).stc = upd p.stc st f := rfl
@[simp] theorem Part.upStc_oqu (p : Part) (st : StationNo) (f : StationCtx → StationCtx) : (p.upStc st f).oqu = p.oqu := rfl
@[simp] theorem Part.upStc_classes (p : Part) (st : StationNo) (f : StationCtx → StationCtx) : (p.upStc st f).classes = p.classes := rfl
@[simp] theorem Part.upStc_cpl (p : Part) (st : StationNo) (f : StationCtx → StationCtx) : (p.upStc st f).cpl = p.cpl := rfl
@[simp] theorem Part.upStc_pipe (p : Part) (st : StationNo) (f : StationCtx → StationCtx) : (p.upStc st f).pipe = p.pipe := rfl
@[simp] theorem Part.upStc_stk (p : Part) (st : StationNo) (f : StationCtx → StationCtx) : (p.upStc st f).stk = p.stk := rfl
@[simp] theorem Part.upStc_lck (p : Part) (st : StationNo) (f : StationCtx → StationCtx) : (p.upStc st f).lck = p.lck := rfl
@[simp] theorem Part.upStc_wbu (p : Part) (st : StationNo) (f : StationCtx → StationCtx) : (p.upStc st f).wbu = p.wbu := rfl
@[simp] theorem Part.upStc_psu (p : Part) (st : StationNo) (f : StationCtx → StationCtx) : (p.upStc st f).psu = p.psu := rfl
@[simp] theorem Part.upStc_jau (p : Part) (st : StationNo) (f : StationCtx → StationCtx) : (p.upStc st f).jau = p.jau := rfl
@[simp] theorem Part.upStc_ntu (p : Part) (st : StationNo) (f : StationCtx → StationCtx) : (p.upStc st f).ntu = p.ntu := rfl
@[simp] theorem Part.upStc_picks (p : Part) (st : StationNo) (f : StationCtx → StationCtx) : (p.upStc st f).picks = p.picks := rfl

@[simp] theorem Part.upRing_inReset (p : Part) (st : StationNo) (f : Ring → Ring) : (p.upRing st f).inReset = p.inReset := rfl
@[simp] theorem Part.upRing_yardkey (p : Part) (st : StationNo) (f : Ring → Ring) : (p.upRing st f).yardkey = p.yardkey := rfl
@[simp] theorem Part.upRing_portU (p : Part) (st : StationNo) (f : Ring → Ring) : (p.upRing st f).portU = p.portU := rfl
@[simp] theorem Part.upRing_portD (p : Part) (st : StationNo) (f : Ring → Ring) : (p.upRing st f).portD = p.portD := rfl
@[simp] theorem Part.upRing_mgu (p : Part) (st : StationNo) (f : Ring → Ring) : (p.upRing st f).mgu = p.mgu := rfl
@[simp] theorem Part.upRing_map (p : Part) (st : StationNo) (f : Ring → Ring) : (p.upRing st f).map = p.map := rfl
@[simp] theorem Part.upRing_stc (p : Part) (st : StationNo) (f : Ring → Ring) : (p.upRing st f).stc = p.stc := rfl
@[simp] theorem Part.upRing_oqu (p : Part) (st : StationNo) (f : Ring → Ring) : (p.upRing st f).oqu = upd p.oqu st f := rfl
@[simp] theorem Part.upRing_classes (p : Part) (st : StationNo) (f : Ring → Ring) : (p.upRing st f).classes = p.classes := rfl
@[simp] theorem Part.upRing_cpl (p : Part) (st : StationNo) (f : Ring → Ring) : (p.upRing st f).cpl = p.cpl := rfl
@[simp] theorem Part.upRing_pipe (p : Part) (st : StationNo) (f : Ring → Ring) : (p.upRing st f).pipe = p.pipe := rfl
@[simp] theorem Part.upRing_stk (p : Part) (st : StationNo) (f : Ring → Ring) : (p.upRing st f).stk = p.stk := rfl
@[simp] theorem Part.upRing_lck (p : Part) (st : StationNo) (f : Ring → Ring) : (p.upRing st f).lck = p.lck := rfl
@[simp] theorem Part.upRing_wbu (p : Part) (st : StationNo) (f : Ring → Ring) : (p.upRing st f).wbu = p.wbu := rfl
@[simp] theorem Part.upRing_psu (p : Part) (st : StationNo) (f : Ring → Ring) : (p.upRing st f).psu = p.psu := rfl
@[simp] theorem Part.upRing_jau (p : Part) (st : StationNo) (f : Ring → Ring) : (p.upRing st f).jau = p.jau := rfl
@[simp] theorem Part.upRing_ntu (p : Part) (st : StationNo) (f : Ring → Ring) : (p.upRing st f).ntu = p.ntu := rfl
@[simp] theorem Part.upRing_picks (p : Part) (st : StationNo) (f : Ring → Ring) : (p.upRing st f).picks = p.picks := rfl

@[simp] theorem Part.upCpl_inReset (p : Part) (st : StationNo) (f : Pipeline → Pipeline) : (p.upCpl st f).inReset = p.inReset := rfl
@[simp] theorem Part.upCpl_yardkey (p : Part) (st : StationNo) (f : Pipeline → Pipeline) : (p.upCpl st f).yardkey = p.yardkey := rfl
@[simp] theorem Part.upCpl_portU (p : Part) (st : StationNo) (f : Pipeline → Pipeline) : (p.upCpl st f).portU = p.portU := rfl
@[simp] theorem Part.upCpl_portD (p : Part) (st : StationNo) (f : Pipeline → Pipeline) : (p.upCpl st f).portD = p.portD := rfl
@[simp] theorem Part.upCpl_mgu (p : Part) (st : StationNo) (f : Pipeline → Pipeline) : (p.upCpl st f).mgu = p.mgu := rfl
@[simp] theorem Part.upCpl_map (p : Part) (st : StationNo) (f : Pipeline → Pipeline) : (p.upCpl st f).map = p.map := rfl
@[simp] theorem Part.upCpl_stc (p : Part) (st : StationNo) (f : Pipeline → Pipeline) : (p.upCpl st f).stc = p.stc := rfl
@[simp] theorem Part.upCpl_oqu (p : Part) (st : StationNo) (f : Pipeline → Pipeline) : (p.upCpl st f).oqu = p.oqu := rfl
@[simp] theorem Part.upCpl_classes (p : Part) (st : StationNo) (f : Pipeline → Pipeline) : (p.upCpl st f).classes = p.classes := rfl
@[simp] theorem Part.upCpl_cpl (p : Part) (st : StationNo) (f : Pipeline → Pipeline) : (p.upCpl st f).cpl = upd p.cpl st f := rfl
@[simp] theorem Part.upCpl_pipe (p : Part) (st : StationNo) (f : Pipeline → Pipeline) : (p.upCpl st f).pipe = p.pipe := rfl
@[simp] theorem Part.upCpl_stk (p : Part) (st : StationNo) (f : Pipeline → Pipeline) : (p.upCpl st f).stk = p.stk := rfl
@[simp] theorem Part.upCpl_lck (p : Part) (st : StationNo) (f : Pipeline → Pipeline) : (p.upCpl st f).lck = p.lck := rfl
@[simp] theorem Part.upCpl_wbu (p : Part) (st : StationNo) (f : Pipeline → Pipeline) : (p.upCpl st f).wbu = p.wbu := rfl
@[simp] theorem Part.upCpl_psu (p : Part) (st : StationNo) (f : Pipeline → Pipeline) : (p.upCpl st f).psu = p.psu := rfl
@[simp] theorem Part.upCpl_jau (p : Part) (st : StationNo) (f : Pipeline → Pipeline) : (p.upCpl st f).jau = p.jau := rfl
@[simp] theorem Part.upCpl_ntu (p : Part) (st : StationNo) (f : Pipeline → Pipeline) : (p.upCpl st f).ntu = p.ntu := rfl
@[simp] theorem Part.upCpl_picks (p : Part) (st : StationNo) (f : Pipeline → Pipeline) : (p.upCpl st f).picks = p.picks := rfl

@[simp] theorem Part.upSlab_inReset (p : Part) (n : SlabNo) (f : Option Slab → Option Slab) : (p.upSlab n f).inReset = p.inReset := rfl
@[simp] theorem Part.upSlab_yardkey (p : Part) (n : SlabNo) (f : Option Slab → Option Slab) : (p.upSlab n f).yardkey = p.yardkey := rfl
@[simp] theorem Part.upSlab_portU (p : Part) (n : SlabNo) (f : Option Slab → Option Slab) : (p.upSlab n f).portU = p.portU := rfl
@[simp] theorem Part.upSlab_portD (p : Part) (n : SlabNo) (f : Option Slab → Option Slab) : (p.upSlab n f).portD = p.portD := rfl
@[simp] theorem Part.upSlab_mgu (p : Part) (n : SlabNo) (f : Option Slab → Option Slab) : (p.upSlab n f).mgu = p.mgu := rfl
@[simp] theorem Part.upSlab_map (p : Part) (n : SlabNo) (f : Option Slab → Option Slab) : (p.upSlab n f).map = p.map := rfl
@[simp] theorem Part.upSlab_stc (p : Part) (n : SlabNo) (f : Option Slab → Option Slab) : (p.upSlab n f).stc = p.stc := rfl
@[simp] theorem Part.upSlab_oqu (p : Part) (n : SlabNo) (f : Option Slab → Option Slab) : (p.upSlab n f).oqu = p.oqu := rfl
@[simp] theorem Part.upSlab_classes (p : Part) (n : SlabNo) (f : Option Slab → Option Slab) : (p.upSlab n f).classes = p.classes := rfl
@[simp] theorem Part.upSlab_cpl (p : Part) (n : SlabNo) (f : Option Slab → Option Slab) : (p.upSlab n f).cpl = p.cpl := rfl
@[simp] theorem Part.upSlab_pipe (p : Part) (n : SlabNo) (f : Option Slab → Option Slab) : (p.upSlab n f).pipe = p.pipe := rfl
@[simp] theorem Part.upSlab_stk (p : Part) (n : SlabNo) (f : Option Slab → Option Slab) : (p.upSlab n f).stk = { p.stk with slabs := upd p.stk.slabs n f } := rfl
@[simp] theorem Part.upSlab_lck (p : Part) (n : SlabNo) (f : Option Slab → Option Slab) : (p.upSlab n f).lck = p.lck := rfl
@[simp] theorem Part.upSlab_wbu (p : Part) (n : SlabNo) (f : Option Slab → Option Slab) : (p.upSlab n f).wbu = p.wbu := rfl
@[simp] theorem Part.upSlab_psu (p : Part) (n : SlabNo) (f : Option Slab → Option Slab) : (p.upSlab n f).psu = p.psu := rfl
@[simp] theorem Part.upSlab_jau (p : Part) (n : SlabNo) (f : Option Slab → Option Slab) : (p.upSlab n f).jau = p.jau := rfl
@[simp] theorem Part.upSlab_ntu (p : Part) (n : SlabNo) (f : Option Slab → Option Slab) : (p.upSlab n f).ntu = p.ntu := rfl
@[simp] theorem Part.upSlab_picks (p : Part) (n : SlabNo) (f : Option Slab → Option Slab) : (p.upSlab n f).picks = p.picks := rfl

@[simp] theorem Part.upStk_inReset (p : Part) (f : Stk → Stk) : (p.upStk f).inReset = p.inReset := rfl
@[simp] theorem Part.upStk_yardkey (p : Part) (f : Stk → Stk) : (p.upStk f).yardkey = p.yardkey := rfl
@[simp] theorem Part.upStk_portU (p : Part) (f : Stk → Stk) : (p.upStk f).portU = p.portU := rfl
@[simp] theorem Part.upStk_portD (p : Part) (f : Stk → Stk) : (p.upStk f).portD = p.portD := rfl
@[simp] theorem Part.upStk_mgu (p : Part) (f : Stk → Stk) : (p.upStk f).mgu = p.mgu := rfl
@[simp] theorem Part.upStk_map (p : Part) (f : Stk → Stk) : (p.upStk f).map = p.map := rfl
@[simp] theorem Part.upStk_stc (p : Part) (f : Stk → Stk) : (p.upStk f).stc = p.stc := rfl
@[simp] theorem Part.upStk_oqu (p : Part) (f : Stk → Stk) : (p.upStk f).oqu = p.oqu := rfl
@[simp] theorem Part.upStk_classes (p : Part) (f : Stk → Stk) : (p.upStk f).classes = p.classes := rfl
@[simp] theorem Part.upStk_cpl (p : Part) (f : Stk → Stk) : (p.upStk f).cpl = p.cpl := rfl
@[simp] theorem Part.upStk_pipe (p : Part) (f : Stk → Stk) : (p.upStk f).pipe = p.pipe := rfl
@[simp] theorem Part.upStk_stk (p : Part) (f : Stk → Stk) : (p.upStk f).stk = f p.stk := rfl
@[simp] theorem Part.upStk_lck (p : Part) (f : Stk → Stk) : (p.upStk f).lck = p.lck := rfl
@[simp] theorem Part.upStk_wbu (p : Part) (f : Stk → Stk) : (p.upStk f).wbu = p.wbu := rfl
@[simp] theorem Part.upStk_psu (p : Part) (f : Stk → Stk) : (p.upStk f).psu = p.psu := rfl
@[simp] theorem Part.upStk_jau (p : Part) (f : Stk → Stk) : (p.upStk f).jau = p.jau := rfl
@[simp] theorem Part.upStk_ntu (p : Part) (f : Stk → Stk) : (p.upStk f).ntu = p.ntu := rfl
@[simp] theorem Part.upStk_picks (p : Part) (f : Stk → Stk) : (p.upStk f).picks = p.picks := rfl

@[simp] theorem Part.upLck_inReset (p : Part) (f : Lck → Lck) : (p.upLck f).inReset = p.inReset := rfl
@[simp] theorem Part.upLck_yardkey (p : Part) (f : Lck → Lck) : (p.upLck f).yardkey = p.yardkey := rfl
@[simp] theorem Part.upLck_portU (p : Part) (f : Lck → Lck) : (p.upLck f).portU = p.portU := rfl
@[simp] theorem Part.upLck_portD (p : Part) (f : Lck → Lck) : (p.upLck f).portD = p.portD := rfl
@[simp] theorem Part.upLck_mgu (p : Part) (f : Lck → Lck) : (p.upLck f).mgu = p.mgu := rfl
@[simp] theorem Part.upLck_map (p : Part) (f : Lck → Lck) : (p.upLck f).map = p.map := rfl
@[simp] theorem Part.upLck_stc (p : Part) (f : Lck → Lck) : (p.upLck f).stc = p.stc := rfl
@[simp] theorem Part.upLck_oqu (p : Part) (f : Lck → Lck) : (p.upLck f).oqu = p.oqu := rfl
@[simp] theorem Part.upLck_classes (p : Part) (f : Lck → Lck) : (p.upLck f).classes = p.classes := rfl
@[simp] theorem Part.upLck_cpl (p : Part) (f : Lck → Lck) : (p.upLck f).cpl = p.cpl := rfl
@[simp] theorem Part.upLck_pipe (p : Part) (f : Lck → Lck) : (p.upLck f).pipe = p.pipe := rfl
@[simp] theorem Part.upLck_stk (p : Part) (f : Lck → Lck) : (p.upLck f).stk = p.stk := rfl
@[simp] theorem Part.upLck_lck (p : Part) (f : Lck → Lck) : (p.upLck f).lck = f p.lck := rfl
@[simp] theorem Part.upLck_wbu (p : Part) (f : Lck → Lck) : (p.upLck f).wbu = p.wbu := rfl
@[simp] theorem Part.upLck_psu (p : Part) (f : Lck → Lck) : (p.upLck f).psu = p.psu := rfl
@[simp] theorem Part.upLck_jau (p : Part) (f : Lck → Lck) : (p.upLck f).jau = p.jau := rfl
@[simp] theorem Part.upLck_ntu (p : Part) (f : Lck → Lck) : (p.upLck f).ntu = p.ntu := rfl
@[simp] theorem Part.upLck_picks (p : Part) (f : Lck → Lck) : (p.upLck f).picks = p.picks := rfl

@[simp] theorem Part.upWbu_inReset (p : Part) (f : Wbu → Wbu) : (p.upWbu f).inReset = p.inReset := rfl
@[simp] theorem Part.upWbu_yardkey (p : Part) (f : Wbu → Wbu) : (p.upWbu f).yardkey = p.yardkey := rfl
@[simp] theorem Part.upWbu_portU (p : Part) (f : Wbu → Wbu) : (p.upWbu f).portU = p.portU := rfl
@[simp] theorem Part.upWbu_portD (p : Part) (f : Wbu → Wbu) : (p.upWbu f).portD = p.portD := rfl
@[simp] theorem Part.upWbu_mgu (p : Part) (f : Wbu → Wbu) : (p.upWbu f).mgu = p.mgu := rfl
@[simp] theorem Part.upWbu_map (p : Part) (f : Wbu → Wbu) : (p.upWbu f).map = p.map := rfl
@[simp] theorem Part.upWbu_stc (p : Part) (f : Wbu → Wbu) : (p.upWbu f).stc = p.stc := rfl
@[simp] theorem Part.upWbu_oqu (p : Part) (f : Wbu → Wbu) : (p.upWbu f).oqu = p.oqu := rfl
@[simp] theorem Part.upWbu_classes (p : Part) (f : Wbu → Wbu) : (p.upWbu f).classes = p.classes := rfl
@[simp] theorem Part.upWbu_cpl (p : Part) (f : Wbu → Wbu) : (p.upWbu f).cpl = p.cpl := rfl
@[simp] theorem Part.upWbu_pipe (p : Part) (f : Wbu → Wbu) : (p.upWbu f).pipe = p.pipe := rfl
@[simp] theorem Part.upWbu_stk (p : Part) (f : Wbu → Wbu) : (p.upWbu f).stk = p.stk := rfl
@[simp] theorem Part.upWbu_lck (p : Part) (f : Wbu → Wbu) : (p.upWbu f).lck = p.lck := rfl
@[simp] theorem Part.upWbu_wbu (p : Part) (f : Wbu → Wbu) : (p.upWbu f).wbu = f p.wbu := rfl
@[simp] theorem Part.upWbu_psu (p : Part) (f : Wbu → Wbu) : (p.upWbu f).psu = p.psu := rfl
@[simp] theorem Part.upWbu_jau (p : Part) (f : Wbu → Wbu) : (p.upWbu f).jau = p.jau := rfl
@[simp] theorem Part.upWbu_ntu (p : Part) (f : Wbu → Wbu) : (p.upWbu f).ntu = p.ntu := rfl
@[simp] theorem Part.upWbu_picks (p : Part) (f : Wbu → Wbu) : (p.upWbu f).picks = p.picks := rfl

@[simp] theorem Part.upPsu_inReset (p : Part) (f : Psu → Psu) : (p.upPsu f).inReset = p.inReset := rfl
@[simp] theorem Part.upPsu_yardkey (p : Part) (f : Psu → Psu) : (p.upPsu f).yardkey = p.yardkey := rfl
@[simp] theorem Part.upPsu_portU (p : Part) (f : Psu → Psu) : (p.upPsu f).portU = p.portU := rfl
@[simp] theorem Part.upPsu_portD (p : Part) (f : Psu → Psu) : (p.upPsu f).portD = p.portD := rfl
@[simp] theorem Part.upPsu_mgu (p : Part) (f : Psu → Psu) : (p.upPsu f).mgu = p.mgu := rfl
@[simp] theorem Part.upPsu_map (p : Part) (f : Psu → Psu) : (p.upPsu f).map = p.map := rfl
@[simp] theorem Part.upPsu_stc (p : Part) (f : Psu → Psu) : (p.upPsu f).stc = p.stc := rfl
@[simp] theorem Part.upPsu_oqu (p : Part) (f : Psu → Psu) : (p.upPsu f).oqu = p.oqu := rfl
@[simp] theorem Part.upPsu_classes (p : Part) (f : Psu → Psu) : (p.upPsu f).classes = p.classes := rfl
@[simp] theorem Part.upPsu_cpl (p : Part) (f : Psu → Psu) : (p.upPsu f).cpl = p.cpl := rfl
@[simp] theorem Part.upPsu_pipe (p : Part) (f : Psu → Psu) : (p.upPsu f).pipe = p.pipe := rfl
@[simp] theorem Part.upPsu_stk (p : Part) (f : Psu → Psu) : (p.upPsu f).stk = p.stk := rfl
@[simp] theorem Part.upPsu_lck (p : Part) (f : Psu → Psu) : (p.upPsu f).lck = p.lck := rfl
@[simp] theorem Part.upPsu_wbu (p : Part) (f : Psu → Psu) : (p.upPsu f).wbu = p.wbu := rfl
@[simp] theorem Part.upPsu_psu (p : Part) (f : Psu → Psu) : (p.upPsu f).psu = f p.psu := rfl
@[simp] theorem Part.upPsu_jau (p : Part) (f : Psu → Psu) : (p.upPsu f).jau = p.jau := rfl
@[simp] theorem Part.upPsu_ntu (p : Part) (f : Psu → Psu) : (p.upPsu f).ntu = p.ntu := rfl
@[simp] theorem Part.upPsu_picks (p : Part) (f : Psu → Psu) : (p.upPsu f).picks = p.picks := rfl

@[simp] theorem Part.upPost_inReset (p : Part) (st : StationNo) (f : Posting → Posting) : (p.upPost st f).inReset = p.inReset := rfl
@[simp] theorem Part.upPost_yardkey (p : Part) (st : StationNo) (f : Posting → Posting) : (p.upPost st f).yardkey = p.yardkey := rfl
@[simp] theorem Part.upPost_portU (p : Part) (st : StationNo) (f : Posting → Posting) : (p.upPost st f).portU = p.portU := rfl
@[simp] theorem Part.upPost_portD (p : Part) (st : StationNo) (f : Posting → Posting) : (p.upPost st f).portD = p.portD := rfl
@[simp] theorem Part.upPost_mgu (p : Part) (st : StationNo) (f : Posting → Posting) : (p.upPost st f).mgu = p.mgu := rfl
@[simp] theorem Part.upPost_map (p : Part) (st : StationNo) (f : Posting → Posting) : (p.upPost st f).map = p.map := rfl
@[simp] theorem Part.upPost_stc (p : Part) (st : StationNo) (f : Posting → Posting) : (p.upPost st f).stc = p.stc := rfl
@[simp] theorem Part.upPost_oqu (p : Part) (st : StationNo) (f : Posting → Posting) : (p.upPost st f).oqu = p.oqu := rfl
@[simp] theorem Part.upPost_classes (p : Part) (st : StationNo) (f : Posting → Posting) : (p.upPost st f).classes = p.classes := rfl
@[simp] theorem Part.upPost_cpl (p : Part) (st : StationNo) (f : Posting → Posting) : (p.upPost st f).cpl = p.cpl := rfl
@[simp] theorem Part.upPost_pipe (p : Part) (st : StationNo) (f : Posting → Posting) : (p.upPost st f).pipe = p.pipe := rfl
@[simp] theorem Part.upPost_stk (p : Part) (st : StationNo) (f : Posting → Posting) : (p.upPost st f).stk = p.stk := rfl
@[simp] theorem Part.upPost_lck (p : Part) (st : StationNo) (f : Posting → Posting) : (p.upPost st f).lck = p.lck := rfl
@[simp] theorem Part.upPost_wbu (p : Part) (st : StationNo) (f : Posting → Posting) : (p.upPost st f).wbu = p.wbu := rfl
@[simp] theorem Part.upPost_psu (p : Part) (st : StationNo) (f : Posting → Posting) : (p.upPost st f).psu = { p.psu with posts := upd p.psu.posts st f } := rfl
@[simp] theorem Part.upPost_jau (p : Part) (st : StationNo) (f : Posting → Posting) : (p.upPost st f).jau = p.jau := rfl
@[simp] theorem Part.upPost_ntu (p : Part) (st : StationNo) (f : Posting → Posting) : (p.upPost st f).ntu = p.ntu := rfl
@[simp] theorem Part.upPost_picks (p : Part) (st : StationNo) (f : Posting → Posting) : (p.upPost st f).picks = p.picks := rfl

@[simp] theorem Part.upJob_inReset (p : Part) (n : JobNo) (f : Job → Job) : (p.upJob n f).inReset = p.inReset := rfl
@[simp] theorem Part.upJob_yardkey (p : Part) (n : JobNo) (f : Job → Job) : (p.upJob n f).yardkey = p.yardkey := rfl
@[simp] theorem Part.upJob_portU (p : Part) (n : JobNo) (f : Job → Job) : (p.upJob n f).portU = p.portU := rfl
@[simp] theorem Part.upJob_portD (p : Part) (n : JobNo) (f : Job → Job) : (p.upJob n f).portD = p.portD := rfl
@[simp] theorem Part.upJob_mgu (p : Part) (n : JobNo) (f : Job → Job) : (p.upJob n f).mgu = p.mgu := rfl
@[simp] theorem Part.upJob_map (p : Part) (n : JobNo) (f : Job → Job) : (p.upJob n f).map = p.map := rfl
@[simp] theorem Part.upJob_stc (p : Part) (n : JobNo) (f : Job → Job) : (p.upJob n f).stc = p.stc := rfl
@[simp] theorem Part.upJob_oqu (p : Part) (n : JobNo) (f : Job → Job) : (p.upJob n f).oqu = p.oqu := rfl
@[simp] theorem Part.upJob_classes (p : Part) (n : JobNo) (f : Job → Job) : (p.upJob n f).classes = p.classes := rfl
@[simp] theorem Part.upJob_cpl (p : Part) (n : JobNo) (f : Job → Job) : (p.upJob n f).cpl = p.cpl := rfl
@[simp] theorem Part.upJob_pipe (p : Part) (n : JobNo) (f : Job → Job) : (p.upJob n f).pipe = p.pipe := rfl
@[simp] theorem Part.upJob_stk (p : Part) (n : JobNo) (f : Job → Job) : (p.upJob n f).stk = p.stk := rfl
@[simp] theorem Part.upJob_lck (p : Part) (n : JobNo) (f : Job → Job) : (p.upJob n f).lck = p.lck := rfl
@[simp] theorem Part.upJob_wbu (p : Part) (n : JobNo) (f : Job → Job) : (p.upJob n f).wbu = p.wbu := rfl
@[simp] theorem Part.upJob_psu (p : Part) (n : JobNo) (f : Job → Job) : (p.upJob n f).psu = p.psu := rfl
@[simp] theorem Part.upJob_jau (p : Part) (n : JobNo) (f : Job → Job) : (p.upJob n f).jau = { p.jau with jobs := upd p.jau.jobs n f } := rfl
@[simp] theorem Part.upJob_ntu (p : Part) (n : JobNo) (f : Job → Job) : (p.upJob n f).ntu = p.ntu := rfl
@[simp] theorem Part.upJob_picks (p : Part) (n : JobNo) (f : Job → Job) : (p.upJob n f).picks = p.picks := rfl

@[simp] theorem Part.upNtu_inReset (p : Part) (f : Ntu → Ntu) : (p.upNtu f).inReset = p.inReset := rfl
@[simp] theorem Part.upNtu_yardkey (p : Part) (f : Ntu → Ntu) : (p.upNtu f).yardkey = p.yardkey := rfl
@[simp] theorem Part.upNtu_portU (p : Part) (f : Ntu → Ntu) : (p.upNtu f).portU = p.portU := rfl
@[simp] theorem Part.upNtu_portD (p : Part) (f : Ntu → Ntu) : (p.upNtu f).portD = p.portD := rfl
@[simp] theorem Part.upNtu_mgu (p : Part) (f : Ntu → Ntu) : (p.upNtu f).mgu = p.mgu := rfl
@[simp] theorem Part.upNtu_map (p : Part) (f : Ntu → Ntu) : (p.upNtu f).map = p.map := rfl
@[simp] theorem Part.upNtu_stc (p : Part) (f : Ntu → Ntu) : (p.upNtu f).stc = p.stc := rfl
@[simp] theorem Part.upNtu_oqu (p : Part) (f : Ntu → Ntu) : (p.upNtu f).oqu = p.oqu := rfl
@[simp] theorem Part.upNtu_classes (p : Part) (f : Ntu → Ntu) : (p.upNtu f).classes = p.classes := rfl
@[simp] theorem Part.upNtu_cpl (p : Part) (f : Ntu → Ntu) : (p.upNtu f).cpl = p.cpl := rfl
@[simp] theorem Part.upNtu_pipe (p : Part) (f : Ntu → Ntu) : (p.upNtu f).pipe = p.pipe := rfl
@[simp] theorem Part.upNtu_stk (p : Part) (f : Ntu → Ntu) : (p.upNtu f).stk = p.stk := rfl
@[simp] theorem Part.upNtu_lck (p : Part) (f : Ntu → Ntu) : (p.upNtu f).lck = p.lck := rfl
@[simp] theorem Part.upNtu_wbu (p : Part) (f : Ntu → Ntu) : (p.upNtu f).wbu = p.wbu := rfl
@[simp] theorem Part.upNtu_psu (p : Part) (f : Ntu → Ntu) : (p.upNtu f).psu = p.psu := rfl
@[simp] theorem Part.upNtu_jau (p : Part) (f : Ntu → Ntu) : (p.upNtu f).jau = p.jau := rfl
@[simp] theorem Part.upNtu_ntu (p : Part) (f : Ntu → Ntu) : (p.upNtu f).ntu = f p.ntu := rfl
@[simp] theorem Part.upNtu_picks (p : Part) (f : Ntu → Ntu) : (p.upNtu f).picks = p.picks := rfl

@[simp] theorem Part.upMgu_inReset (p : Part) (f : Mgu → Mgu) : (p.upMgu f).inReset = p.inReset := rfl
@[simp] theorem Part.upMgu_yardkey (p : Part) (f : Mgu → Mgu) : (p.upMgu f).yardkey = p.yardkey := rfl
@[simp] theorem Part.upMgu_portU (p : Part) (f : Mgu → Mgu) : (p.upMgu f).portU = p.portU := rfl
@[simp] theorem Part.upMgu_portD (p : Part) (f : Mgu → Mgu) : (p.upMgu f).portD = p.portD := rfl
@[simp] theorem Part.upMgu_mgu (p : Part) (f : Mgu → Mgu) : (p.upMgu f).mgu = f p.mgu := rfl
@[simp] theorem Part.upMgu_map (p : Part) (f : Mgu → Mgu) : (p.upMgu f).map = p.map := rfl
@[simp] theorem Part.upMgu_stc (p : Part) (f : Mgu → Mgu) : (p.upMgu f).stc = p.stc := rfl
@[simp] theorem Part.upMgu_oqu (p : Part) (f : Mgu → Mgu) : (p.upMgu f).oqu = p.oqu := rfl
@[simp] theorem Part.upMgu_classes (p : Part) (f : Mgu → Mgu) : (p.upMgu f).classes = p.classes := rfl
@[simp] theorem Part.upMgu_cpl (p : Part) (f : Mgu → Mgu) : (p.upMgu f).cpl = p.cpl := rfl
@[simp] theorem Part.upMgu_pipe (p : Part) (f : Mgu → Mgu) : (p.upMgu f).pipe = p.pipe := rfl
@[simp] theorem Part.upMgu_stk (p : Part) (f : Mgu → Mgu) : (p.upMgu f).stk = p.stk := rfl
@[simp] theorem Part.upMgu_lck (p : Part) (f : Mgu → Mgu) : (p.upMgu f).lck = p.lck := rfl
@[simp] theorem Part.upMgu_wbu (p : Part) (f : Mgu → Mgu) : (p.upMgu f).wbu = p.wbu := rfl
@[simp] theorem Part.upMgu_psu (p : Part) (f : Mgu → Mgu) : (p.upMgu f).psu = p.psu := rfl
@[simp] theorem Part.upMgu_jau (p : Part) (f : Mgu → Mgu) : (p.upMgu f).jau = p.jau := rfl
@[simp] theorem Part.upMgu_ntu (p : Part) (f : Mgu → Mgu) : (p.upMgu f).ntu = p.ntu := rfl
@[simp] theorem Part.upMgu_picks (p : Part) (f : Mgu → Mgu) : (p.upMgu f).picks = p.picks := rfl

@[simp] theorem Part.sentU_inReset (p : Part) (fs : List Frame) : (p.sentU fs).inReset = p.inReset := rfl
@[simp] theorem Part.sentU_yardkey (p : Part) (fs : List Frame) : (p.sentU fs).yardkey = p.yardkey := rfl
@[simp] theorem Part.sentU_portU (p : Part) (fs : List Frame) : (p.sentU fs).portU = { p.portU with queue := p.portU.queue ++ fs } := rfl
@[simp] theorem Part.sentU_portD (p : Part) (fs : List Frame) : (p.sentU fs).portD = p.portD := rfl
@[simp] theorem Part.sentU_mgu (p : Part) (fs : List Frame) : (p.sentU fs).mgu = p.mgu := rfl
@[simp] theorem Part.sentU_map (p : Part) (fs : List Frame) : (p.sentU fs).map = p.map := rfl
@[simp] theorem Part.sentU_stc (p : Part) (fs : List Frame) : (p.sentU fs).stc = p.stc := rfl
@[simp] theorem Part.sentU_oqu (p : Part) (fs : List Frame) : (p.sentU fs).oqu = p.oqu := rfl
@[simp] theorem Part.sentU_classes (p : Part) (fs : List Frame) : (p.sentU fs).classes = p.classes := rfl
@[simp] theorem Part.sentU_cpl (p : Part) (fs : List Frame) : (p.sentU fs).cpl = p.cpl := rfl
@[simp] theorem Part.sentU_pipe (p : Part) (fs : List Frame) : (p.sentU fs).pipe = p.pipe := rfl
@[simp] theorem Part.sentU_stk (p : Part) (fs : List Frame) : (p.sentU fs).stk = p.stk := rfl
@[simp] theorem Part.sentU_lck (p : Part) (fs : List Frame) : (p.sentU fs).lck = p.lck := rfl
@[simp] theorem Part.sentU_wbu (p : Part) (fs : List Frame) : (p.sentU fs).wbu = p.wbu := rfl
@[simp] theorem Part.sentU_psu (p : Part) (fs : List Frame) : (p.sentU fs).psu = p.psu := rfl
@[simp] theorem Part.sentU_jau (p : Part) (fs : List Frame) : (p.sentU fs).jau = p.jau := rfl
@[simp] theorem Part.sentU_ntu (p : Part) (fs : List Frame) : (p.sentU fs).ntu = p.ntu := rfl
@[simp] theorem Part.sentU_picks (p : Part) (fs : List Frame) : (p.sentU fs).picks = p.picks := rfl

@[simp] theorem Part.sentD_inReset (p : Part) (fs : List Frame) : (p.sentD fs).inReset = p.inReset := rfl
@[simp] theorem Part.sentD_yardkey (p : Part) (fs : List Frame) : (p.sentD fs).yardkey = p.yardkey := rfl
@[simp] theorem Part.sentD_portU (p : Part) (fs : List Frame) : (p.sentD fs).portU = p.portU := rfl
@[simp] theorem Part.sentD_portD (p : Part) (fs : List Frame) : (p.sentD fs).portD = { p.portD with queue := p.portD.queue ++ fs } := rfl
@[simp] theorem Part.sentD_mgu (p : Part) (fs : List Frame) : (p.sentD fs).mgu = p.mgu := rfl
@[simp] theorem Part.sentD_map (p : Part) (fs : List Frame) : (p.sentD fs).map = p.map := rfl
@[simp] theorem Part.sentD_stc (p : Part) (fs : List Frame) : (p.sentD fs).stc = p.stc := rfl
@[simp] theorem Part.sentD_oqu (p : Part) (fs : List Frame) : (p.sentD fs).oqu = p.oqu := rfl
@[simp] theorem Part.sentD_classes (p : Part) (fs : List Frame) : (p.sentD fs).classes = p.classes := rfl
@[simp] theorem Part.sentD_cpl (p : Part) (fs : List Frame) : (p.sentD fs).cpl = p.cpl := rfl
@[simp] theorem Part.sentD_pipe (p : Part) (fs : List Frame) : (p.sentD fs).pipe = p.pipe := rfl
@[simp] theorem Part.sentD_stk (p : Part) (fs : List Frame) : (p.sentD fs).stk = p.stk := rfl
@[simp] theorem Part.sentD_lck (p : Part) (fs : List Frame) : (p.sentD fs).lck = p.lck := rfl
@[simp] theorem Part.sentD_wbu (p : Part) (fs : List Frame) : (p.sentD fs).wbu = p.wbu := rfl
@[simp] theorem Part.sentD_psu (p : Part) (fs : List Frame) : (p.sentD fs).psu = p.psu := rfl
@[simp] theorem Part.sentD_jau (p : Part) (fs : List Frame) : (p.sentD fs).jau = p.jau := rfl
@[simp] theorem Part.sentD_ntu (p : Part) (fs : List Frame) : (p.sentD fs).ntu = p.ntu := rfl
@[simp] theorem Part.sentD_picks (p : Part) (fs : List Frame) : (p.sentD fs).picks = p.picks := rfl

@[simp] theorem Part.upPortU_inReset (p : Part) (f : PortState → PortState) : (p.upPort .U f).inReset = p.inReset := rfl
@[simp] theorem Part.upPortU_yardkey (p : Part) (f : PortState → PortState) : (p.upPort .U f).yardkey = p.yardkey := rfl
@[simp] theorem Part.upPortU_portU (p : Part) (f : PortState → PortState) : (p.upPort .U f).portU = f p.portU := rfl
@[simp] theorem Part.upPortU_portD (p : Part) (f : PortState → PortState) : (p.upPort .U f).portD = p.portD := rfl
@[simp] theorem Part.upPortU_mgu (p : Part) (f : PortState → PortState) : (p.upPort .U f).mgu = p.mgu := rfl
@[simp] theorem Part.upPortU_map (p : Part) (f : PortState → PortState) : (p.upPort .U f).map = p.map := rfl
@[simp] theorem Part.upPortU_stc (p : Part) (f : PortState → PortState) : (p.upPort .U f).stc = p.stc := rfl
@[simp] theorem Part.upPortU_oqu (p : Part) (f : PortState → PortState) : (p.upPort .U f).oqu = p.oqu := rfl
@[simp] theorem Part.upPortU_classes (p : Part) (f : PortState → PortState) : (p.upPort .U f).classes = p.classes := rfl
@[simp] theorem Part.upPortU_cpl (p : Part) (f : PortState → PortState) : (p.upPort .U f).cpl = p.cpl := rfl
@[simp] theorem Part.upPortU_pipe (p : Part) (f : PortState → PortState) : (p.upPort .U f).pipe = p.pipe := rfl
@[simp] theorem Part.upPortU_stk (p : Part) (f : PortState → PortState) : (p.upPort .U f).stk = p.stk := rfl
@[simp] theorem Part.upPortU_lck (p : Part) (f : PortState → PortState) : (p.upPort .U f).lck = p.lck := rfl
@[simp] theorem Part.upPortU_wbu (p : Part) (f : PortState → PortState) : (p.upPort .U f).wbu = p.wbu := rfl
@[simp] theorem Part.upPortU_psu (p : Part) (f : PortState → PortState) : (p.upPort .U f).psu = p.psu := rfl
@[simp] theorem Part.upPortU_jau (p : Part) (f : PortState → PortState) : (p.upPort .U f).jau = p.jau := rfl
@[simp] theorem Part.upPortU_ntu (p : Part) (f : PortState → PortState) : (p.upPort .U f).ntu = p.ntu := rfl
@[simp] theorem Part.upPortU_picks (p : Part) (f : PortState → PortState) : (p.upPort .U f).picks = p.picks := rfl
@[simp] theorem Part.port_U (p : Part) : p.port .U = p.portU := rfl

@[simp] theorem Part.upPortD_inReset (p : Part) (f : PortState → PortState) : (p.upPort .D f).inReset = p.inReset := rfl
@[simp] theorem Part.upPortD_yardkey (p : Part) (f : PortState → PortState) : (p.upPort .D f).yardkey = p.yardkey := rfl
@[simp] theorem Part.upPortD_portU (p : Part) (f : PortState → PortState) : (p.upPort .D f).portU = p.portU := rfl
@[simp] theorem Part.upPortD_portD (p : Part) (f : PortState → PortState) : (p.upPort .D f).portD = f p.portD := rfl
@[simp] theorem Part.upPortD_mgu (p : Part) (f : PortState → PortState) : (p.upPort .D f).mgu = p.mgu := rfl
@[simp] theorem Part.upPortD_map (p : Part) (f : PortState → PortState) : (p.upPort .D f).map = p.map := rfl
@[simp] theorem Part.upPortD_stc (p : Part) (f : PortState → PortState) : (p.upPort .D f).stc = p.stc := rfl
@[simp] theorem Part.upPortD_oqu (p : Part) (f : PortState → PortState) : (p.upPort .D f).oqu = p.oqu := rfl
@[simp] theorem Part.upPortD_classes (p : Part) (f : PortState → PortState) : (p.upPort .D f).classes = p.classes := rfl
@[simp] theorem Part.upPortD_cpl (p : Part) (f : PortState → PortState) : (p.upPort .D f).cpl = p.cpl := rfl
@[simp] theorem Part.upPortD_pipe (p : Part) (f : PortState → PortState) : (p.upPort .D f).pipe = p.pipe := rfl
@[simp] theorem Part.upPortD_stk (p : Part) (f : PortState → PortState) : (p.upPort .D f).stk = p.stk := rfl
@[simp] theorem Part.upPortD_lck (p : Part) (f : PortState → PortState) : (p.upPort .D f).lck = p.lck := rfl
@[simp] theorem Part.upPortD_wbu (p : Part) (f : PortState → PortState) : (p.upPort .D f).wbu = p.wbu := rfl
@[simp] theorem Part.upPortD_psu (p : Part) (f : PortState → PortState) : (p.upPort .D f).psu = p.psu := rfl
@[simp] theorem Part.upPortD_jau (p : Part) (f : PortState → PortState) : (p.upPort .D f).jau = p.jau := rfl
@[simp] theorem Part.upPortD_ntu (p : Part) (f : PortState → PortState) : (p.upPort .D f).ntu = p.ntu := rfl
@[simp] theorem Part.upPortD_picks (p : Part) (f : PortState → PortState) : (p.upPort .D f).picks = p.picks := rfl
@[simp] theorem Part.port_D (p : Part) : p.port .D = p.portD := rfl

@[simp] theorem Part.upPort_inReset (p : Part) (x : Port) (f : PortState → PortState) : (p.upPort x f).inReset = p.inReset := by
  cases x <;> rfl
@[simp] theorem Part.upPort_yardkey (p : Part) (x : Port) (f : PortState → PortState) : (p.upPort x f).yardkey = p.yardkey := by
  cases x <;> rfl
@[simp] theorem Part.upPort_mgu (p : Part) (x : Port) (f : PortState → PortState) : (p.upPort x f).mgu = p.mgu := by
  cases x <;> rfl
@[simp] theorem Part.upPort_map (p : Part) (x : Port) (f : PortState → PortState) : (p.upPort x f).map = p.map := by
  cases x <;> rfl
@[simp] theorem Part.upPort_stc (p : Part) (x : Port) (f : PortState → PortState) : (p.upPort x f).stc = p.stc := by
  cases x <;> rfl
@[simp] theorem Part.upPort_oqu (p : Part) (x : Port) (f : PortState → PortState) : (p.upPort x f).oqu = p.oqu := by
  cases x <;> rfl
@[simp] theorem Part.upPort_classes (p : Part) (x : Port) (f : PortState → PortState) : (p.upPort x f).classes = p.classes := by
  cases x <;> rfl
@[simp] theorem Part.upPort_cpl (p : Part) (x : Port) (f : PortState → PortState) : (p.upPort x f).cpl = p.cpl := by
  cases x <;> rfl
@[simp] theorem Part.upPort_pipe (p : Part) (x : Port) (f : PortState → PortState) : (p.upPort x f).pipe = p.pipe := by
  cases x <;> rfl
@[simp] theorem Part.upPort_stk (p : Part) (x : Port) (f : PortState → PortState) : (p.upPort x f).stk = p.stk := by
  cases x <;> rfl
@[simp] theorem Part.upPort_lck (p : Part) (x : Port) (f : PortState → PortState) : (p.upPort x f).lck = p.lck := by
  cases x <;> rfl
@[simp] theorem Part.upPort_wbu (p : Part) (x : Port) (f : PortState → PortState) : (p.upPort x f).wbu = p.wbu := by
  cases x <;> rfl
@[simp] theorem Part.upPort_psu (p : Part) (x : Port) (f : PortState → PortState) : (p.upPort x f).psu = p.psu := by
  cases x <;> rfl
@[simp] theorem Part.upPort_jau (p : Part) (x : Port) (f : PortState → PortState) : (p.upPort x f).jau = p.jau := by
  cases x <;> rfl
@[simp] theorem Part.upPort_ntu (p : Part) (x : Port) (f : PortState → PortState) : (p.upPort x f).ntu = p.ntu := by
  cases x <;> rfl
@[simp] theorem Part.upPort_picks (p : Part) (x : Port) (f : PortState → PortState) : (p.upPort x f).picks = p.picks := by
  cases x <;> rfl

end Sys2Proof.Machine
end

