-- ==== Sys2Proof/Laws/Events.lean ====
section
/-! SUPPORT. What an event does when nothing is under way: an examination with nothing to find, a frame that finds room,
a request that is answered at once. -/

namespace Sys2Proof.Machine

/-! ### Ends of events -/

/-- Every waiting frame belongs to a group: the end of an event changes nothing in the waiting lines. -/
theorem closeGroup_grouped (q : PortState) (h : ∀ w ∈ q.waiting, w.group ≠ none) : q.closeGroup = q := by
  have : q.waiting.map (fun w => { w with group := some (w.group.getD (nextGroup q.waiting)) }) = q.waiting := by
    conv_rhs => rw [← List.map_id q.waiting]
    apply List.map_congr_left
    intro w hw
    obtain ⟨who, g⟩ := w
    cases g with
    | none => exact absurd rfl (h _ hw)
    | some g => rfl
  simp [PortState.closeGroup, this]

theorem closeGroups_grouped (p : Part) (hU : ∀ w ∈ p.portU.waiting, w.group ≠ none)
    (hD : ∀ w ∈ p.portD.waiting, w.group ≠ none) : closeGroups p = p := by
  simp [closeGroups, closeGroup_grouped _ hU, closeGroup_grouped _ hD]

theorem closeGroups_none_waiting (p : Part) (hU : p.portU.waiting = []) (hD : p.portD.waiting = []) :
    closeGroups p = p :=
  closeGroups_grouped p (by simp [hU]) (by simp [hD])

theorem settle_done (n : Nat) (e : Ev) (h : e.todo = []) : settle n e = e := by
  cases n <;> simp [settle, h]

theorem freezeCheck_none (e : Ev) (h : e.p.mgu.inProgress = none) : freezeCheck e = e := by
  simp [freezeCheck, h]

theorem lineResetCheck_none (e : Ev) (h : e.p.mgu.inProgress = none) : lineResetCheck e = e := by
  simp [lineResetCheck, h]

/-- A request that waits for its answer's entry asks nothing of the end of an event. -/
theorem freezeCheck_answering (e : Ev) (r : InProgress) (h : e.p.mgu.inProgress = some r) (hr : r.phase = .answering) :
    freezeCheck e = e := by
  simp [freezeCheck, h, hr]

theorem lineResetCheck_answering (e : Ev) (r : InProgress) (h : e.p.mgu.inProgress = some r)
    (hr : r.phase = .answering) : lineResetCheck e = e := by
  simp [lineResetCheck, h, hr]

theorem finish_idle (n : Nat) (e : Ev) (ht : e.todo = []) (hp : e.p.mgu.inProgress = none) (hq : e.p.mgu.queue = []) :
    finish n e = e := by
  cases n with
  | zero => rfl
  | succ n => simp [finish, settle_done _ _ ht, freezeCheck_none _ hp, lineResetCheck_none _ hp, takeRequest, hp, hq]

theorem finish_answering (n : Nat) (e : Ev) (r : InProgress) (ht : e.todo = []) (hp : e.p.mgu.inProgress = some r)
    (hr : r.phase = .answering) : finish n e = e := by
  cases n with
  | zero => rfl
  | succ n =>
    simp [finish, settle_done _ _ ht, freezeCheck_answering _ _ hp hr, lineResetCheck_answering _ _ hp hr, takeRequest,
      hp]

/-- An event whose own changes leave nothing to examine, no request to take and no frame waiting. -/
theorem event_idle (f : Ev → Ev) (p q : Part) (hf : f ⟨p, []⟩ = ⟨q, []⟩) (hp : q.mgu.inProgress = none)
    (hq : q.mgu.queue = []) (hU : q.portU.waiting = []) (hD : q.portD.waiting = []) : event f p = q := by
  simp only [event, hf]
  rw [finish_idle _ _ rfl hp hq, closeGroups_none_waiting _ hU hD]

theorem handAll_none (x : Port) (p : Part) (h : (p.port x).received = []) : handAll x p = p := by
  simp [handAll, handOver, h]

/-- Nothing waits: nothing is discarded. -/
theorem discard_none (x : Port) (what : Waiter → Bool) (p : Part) (h : (p.port x).waiting = []) :
    discard x what p = p := by
  cases x
  · have e : p.portU.waiting.filter (fun w => !what w.who) = p.portU.waiting := by
      rw [show p.portU.waiting = [] from h]; rfl
    simp only [discard, Part.upPort, e]
  · have e : p.portD.waiting.filter (fun w => !what w.who) = p.portD.waiting := by
      rw [show p.portD.waiting = [] from h]; rfl
    simp only [discard, Part.upPort, e]

/-! ### Frames that find room -/

theorem hasRoom_of_lt (q : PortState) (h : q.queue.length < 16) : hasRoom q = true := by
  simp [hasRoom, Config.queuePlaces, h]

theorem offer_room (w : Waiter) (e : Ev) (h : (e.p.port w.port).queue.length < 16) : offer w e = enter w e := by
  simp [offer, hasRoom_of_lt _ h]

theorem offer_U (w : Waiter) (e : Ev) (hw : w.port = .U) (h : e.p.portU.queue.length < 16) : offer w e = enter w e :=
  offer_room w e (by rw [hw]; exact h)

theorem offer_D (w : Waiter) (e : Ev) (hw : w.port = .D) (h : e.p.portD.queue.length < 16) : offer w e = enter w e :=
  offer_room w e (by rw [hw]; exact h)

theorem offerFrame_room (w : Waiter) (f : Frame) (e : Ev) (h : (e.p.port w.port).queue.length < 16) :
    offerFrame w f e = e.map (push w.port f) := by
  simp [offerFrame, hasRoom_of_lt _ h]

theorem push_U (f : Frame) (p : Part) : push .U f p = p.sentU [f] := rfl

theorem push_D (f : Frame) (p : Part) : push .D f p = p.sentD [f] := rfl

theorem sentU_sentU (p : Part) (a b : List Frame) : (p.sentU a).sentU b = p.sentU (a ++ b) := by
  simp [Part.sentU]

theorem sentD_sentD (p : Part) (a b : List Frame) : (p.sentD a).sentD b = p.sentD (a ++ b) := by
  simp [Part.sentD]

theorem forward_D (f : Frame) (e : Ev) (h : e.p.portU.queue.length < 12) :
    forward .D f e = e.map fun p => p.sentU [f] := by
  simp [forward, otherPort, Config.forwardLimit, h]
  rfl

theorem forward_U (f : Frame) (e : Ev) (h : e.p.portD.queue.length < 12) :
    forward .U f e = e.map fun p => p.sentD [f] := by
  simp [forward, otherPort, Config.forwardLimit, h]
  rfl

/-! ### Requests -/

/-- The part with a request in progress, its answer due. -/
def Part.answering (p : Part) (r : Request) : Part :=
  p.upMgu fun m => { m with inProgress := some ⟨r.code, r.tag, .answering⟩ }

@[simp] theorem Part.answering_inReset (p : Part) (r : Request) : (p.answering r).inReset = p.inReset := rfl
@[simp] theorem Part.answering_yardkey (p : Part) (r : Request) : (p.answering r).yardkey = p.yardkey := rfl
@[simp] theorem Part.answering_portU (p : Part) (r : Request) : (p.answering r).portU = p.portU := rfl
@[simp] theorem Part.answering_portD (p : Part) (r : Request) : (p.answering r).portD = p.portD := rfl
@[simp] theorem Part.answering_map (p : Part) (r : Request) : (p.answering r).map = p.map := rfl
@[simp] theorem Part.answering_stc (p : Part) (r : Request) : (p.answering r).stc = p.stc := rfl
@[simp] theorem Part.answering_oqu (p : Part) (r : Request) : (p.answering r).oqu = p.oqu := rfl
@[simp] theorem Part.answering_classes (p : Part) (r : Request) : (p.answering r).classes = p.classes := rfl
@[simp] theorem Part.answering_cpl (p : Part) (r : Request) : (p.answering r).cpl = p.cpl := rfl
@[simp] theorem Part.answering_pipe (p : Part) (r : Request) : (p.answering r).pipe = p.pipe := rfl
@[simp] theorem Part.answering_stk (p : Part) (r : Request) : (p.answering r).stk = p.stk := rfl
@[simp] theorem Part.answering_lck (p : Part) (r : Request) : (p.answering r).lck = p.lck := rfl
@[simp] theorem Part.answering_wbu (p : Part) (r : Request) : (p.answering r).wbu = p.wbu := rfl
@[simp] theorem Part.answering_psu (p : Part) (r : Request) : (p.answering r).psu = p.psu := rfl
@[simp] theorem Part.answering_jau (p : Part) (r : Request) : (p.answering r).jau = p.jau := rfl
@[simp] theorem Part.answering_ntu (p : Part) (r : Request) : (p.answering r).ntu = p.ntu := rfl
@[simp] theorem Part.answering_picks (p : Part) (r : Request) : (p.answering r).picks = p.picks := rfl

/-- MGU takes a request at once when it is idle (R12). -/
theorem event_request (r : Request) (p : Part) (h : Quiet p) :
    event (handRequest r) (handAll .U p) = closeGroups (finish 15 (carryOut r ⟨p.answering r, []⟩)).p := by
  obtain ⟨-, hq, hp, hr, -, -, -⟩ := h
  rw [handAll_none .U p hr]
  simp [event, handRequest, hq, Config.requestPlaces, Config.requestFuel, finish, settle_done, freezeCheck_none,
    lineResetCheck_none, takeRequest, hp, Ev.map, Part.upMgu, Part.answering]

/-- A reply whose effect leaves the queues alone is answered in its own event: the request ceases to be in progress. -/
theorem reply_entered (code tag : Byte) (n : Nat) (q : Part) (status : Status) (bytes : List Byte)
    (hq : q.mgu.queue = []) (hU : q.portU.waiting = []) (hD : q.portD.waiting = [])
    (hr : q.portU.queue.length < 16) :
    closeGroups (finish n (sendReply code tag ⟨⟨q, []⟩, status, bytes⟩)).p =
      (answered q).sentU [answerFrame code tag status bytes] := by
  have h1 : sendReply code tag ⟨⟨q, []⟩, status, bytes⟩ =
      ⟨(answered q).sentU [answerFrame code tag status bytes], []⟩ := by
    have hr' : ((⟨q, []⟩ : Ev).p.port
        (Waiter.manageAnswer none (answerFrame code tag status bytes)).port).queue.length < 16 := hr
    simp only [sendReply]
    rw [offer_room _ _ hr']
    rfl
  rw [h1, finish_idle _ _ rfl rfl hq]
  exact closeGroups_none_waiting _ hU hD

/-- The part at rest again after an answer: MGU as it was before it took the request. -/
theorem answered_restores (p q : Part) (r : Request) (hp : p.mgu.inProgress = none)
    (hm : q.mgu = (p.answering r).mgu) : answered q = { q with mgu := p.mgu } := by
  simp only [answered, Part.upMgu, hm, Part.answering, ← hp]

/-- A request answered at once in a quiet part: its effect, and its answer in port U's queue. -/
theorem request_answered (r : Request) (s : State) (q : Part) (status : Status) (bytes : List Byte)
    (h : Quiet s.part)
    (hc : carryOut r ⟨s.part.answering r, []⟩ = sendReply r.code r.tag ⟨⟨q, []⟩, status, bytes⟩)
    (hm : q.mgu = (s.part.answering r).mgu) (hU : q.portU.waiting = []) (hD : q.portD.waiting = [])
    (hr : q.portU.queue.length < 16) :
    request r s = .next { s with part :=
      ({ q with mgu := s.part.mgu } : Part).sentU [answerFrame r.code r.tag status bytes] } := by
  have hq : q.mgu.queue = [] := by rw [hm]; exact h.2.1
  simp only [request, live, h.1, Bool.false_eq_true, if_false]
  rw [event_request r _ h, hc, reply_entered _ _ _ _ _ _ hq hU hD hr, answered_restores _ _ r h.2.2.1 hm]

/-- A request that changes nothing. -/
theorem request_report (r : Request) (s : State) (status : Status) (bytes : List Byte) (h : Quiet s.part)
    (hr : RoomU 1 s.part)
    (hc : carryOut r ⟨s.part.answering r, []⟩ = sendReply r.code r.tag ⟨⟨s.part.answering r, []⟩, status, bytes⟩) :
    request r s = .next { s with part := s.part.sentU [answerFrame r.code r.tag status bytes] } := by
  have hr' : s.part.portU.queue.length < 16 := hr
  exact request_answered r s (s.part.answering r) status bytes h hc rfl h.2.2.2.2.2.1 h.2.2.2.2.2.2 hr'

end Sys2Proof.Machine
end

