-- ==== Sys2Proof/Laws/Requests.lean ====
section
/-! SUPPORT. The checks and clamps of management requests on the values they accept and on those they refuse, and
a request answered at once with its effect. -/

namespace Sys2Proof

theorem index_of {n k : Nat} (i : Fin n) (h : i.val = k) : index n k = some i := by
  subst h; simp [index]

theorem index_none {n k : Nat} (h : n ≤ k) : index n k = none := by
  simp [index, Nat.not_lt.mpr h]

end Sys2Proof

namespace Sys2Proof.Machine

theorem flagOf_none (b : Byte) (h : 2 ≤ b.toNat) : flagOf b = none := by
  unfold flagOf
  split <;> first | omega | rfl

theorem flagOf_some (b : Byte) (x : Bool) (h : b.toNat = if x then 1 else 0) : flagOf b = some x := by
  unfold flagOf
  cases x <;> simp_all

theorem clamp_eq (lo hi x : Nat) (h : lo ≤ hi) : clamp lo hi x = max lo (min hi x) := by
  unfold clamp
  split
  · omega
  · split <;> omega

theorem outside_iff (lo hi x : Nat) : outside lo hi x = true ↔ ¬(lo ≤ x ∧ x ≤ hi) := by
  simp only [outside, Bool.or_eq_true, decide_eq_true_eq]
  omega

theorem writeStatus_eq (b : Bool) (p : Prop) [Decidable p] (h : b = true ↔ ¬p) :
    writeStatus b = if p then .done else .clamped := by
  by_cases hp : p
  · have : b = false := by simpa [hp] using h
    simp [writeStatus, hp, this]
  · simp [writeStatus, hp, h.mpr hp]

/-- The answer of a request whose effect leaves MGU and the waiting lines alone, and may send frames. -/
theorem request_sends (r : Request) (s : State) (q : Part) (status : Status) (bytes : List Byte)
    (h : Quiet s.part)
    (hc : carryOut r ⟨s.part.answering r, []⟩ =
      sendReply r.code r.tag ⟨⟨{ q with mgu := (s.part.answering r).mgu }, []⟩, status, bytes⟩)
    (hm : q.mgu = s.part.mgu) (hU : q.portU.waiting = []) (hD : q.portD.waiting = [])
    (hr : q.portU.queue.length < 16) :
    request r s = .next (s.answer q r.code r.tag status bytes) := by
  rw [request_answered r s { q with mgu := (s.part.answering r).mgu } status bytes h hc rfl hU hD hr]
  simp only [State.answer]
  rw [← hm]

/-- The answer of a request whose effect leaves MGU and the two ports alone. -/
theorem request_effect (r : Request) (s : State) (q : Part) (status : Status) (bytes : List Byte)
    (h : Quiet s.part) (hr : RoomU 1 s.part)
    (hc : carryOut r ⟨s.part.answering r, []⟩ =
      sendReply r.code r.tag ⟨⟨{ q with mgu := (s.part.answering r).mgu }, []⟩, status, bytes⟩)
    (hm : q.mgu = s.part.mgu) (hU : q.portU = s.part.portU) (hD : q.portD = s.part.portD) :
    request r s = .next (s.answer q r.code r.tag status bytes) :=
  request_sends r s q status bytes h hc hm (by rw [hU]; exact h.2.2.2.2.2.1) (by rw [hD]; exact h.2.2.2.2.2.2)
    (by rw [hU]; exact hr)

end Sys2Proof.Machine
end

