-- ==== Sys2Proof/Laws/Stations.lean ====
section
/-! SUPPORT. The examinations of a station with nothing due, and requests that ask for them. -/

namespace Sys2Proof.Machine

theorem passSpent_none (n : Nat) (r : Ring) (h : r.headSpent = false) : r.passSpent n = r := by
  cases n <;> simp [Ring.passSpent, h]

theorem upRing_id (p : Part) (st : StationNo) (f : Ring → Ring) (h : f p.oqu[st] = p.oqu[st]) : p.upRing st f = p := by
  simp [Part.upRing, upd_id _ _ _ h]

theorem upCpl_id (p : Part) (st : StationNo) (f : Pipeline → Pipeline) (h : f p.cpl[st] = p.cpl[st]) :
    p.upCpl st f = p := by
  simp [Part.upCpl, upd_id _ _ _ h]

theorem upStc_id (p : Part) (st : StationNo) (f : StationCtx → StationCtx) (h : f p.stc[st] = p.stc[st]) :
    p.upStc st f = p := by
  simp [Part.upStc, upd_id _ _ _ h]

/-- CPL finds nothing at a station with nothing due. -/
theorem examineStation_none (st : StationNo) (e : Ev) (h : NoneDue e.p st) : examineStation st e = e := by
  obtain ⟨-, hd, ha, hs⟩ := h
  have h1 : e.p.upRing st (fun r => r.passSpent 16) = e.p := upRing_id _ _ _ (passSpent_none 16 _ hs)
  have h2 : moveOnDeck st e.p = e.p := by
    unfold moveOnDeck
    split
    · rfl
    · simp only [ha]
  simp only [examineStation, Ev.map, h1, h2, hd]

/-- OQU finds nothing to claim. -/
theorem examineClaim_none (st : StationNo) (e : Ev) (h : e.p.oqu[st].unclaimedChain = none) :
    examineClaim st e = e := by
  unfold examineClaim
  split
  · rfl
  · simp only [h]

/-- Examinations that find nothing. -/
theorem settle_none (n : Nat) (p : Part) (ts : List Task) (hn : ts.length ≤ n)
    (h : ∀ t ∈ ts, ∀ rest, runTask t ⟨p, rest⟩ = ⟨p, rest⟩) : settle n ⟨p, ts⟩ = ⟨p, []⟩ := by
  induction ts generalizing n with
  | nil => exact settle_done _ _ rfl
  | cons t rest ih =>
    cases n with
    | zero => simp at hn
    | succ n =>
      simp only [settle]
      rw [h t (by simp)]
      exact ih n (by simpa using hn) fun t ht => h t (by simp [ht])

/-- The end of an event that finds nothing, with no request under way. -/
theorem finish_none (n : Nat) (p : Part) (ts : List Task) (hn : ts.length ≤ Config.eventFuel)
    (h : ∀ t ∈ ts, ∀ rest, runTask t ⟨p, rest⟩ = ⟨p, rest⟩) (hp : p.mgu.inProgress = none) (hq : p.mgu.queue = []) :
    (finish (n + 1) ⟨p, ts⟩).p = p := by
  simp only [finish, settle_none _ _ _ hn h]
  rw [freezeCheck_none _ hp, lineResetCheck_none _ hp]
  simp [takeRequest, hp, hq]

/-- An event whose own changes leave only examinations that find nothing. -/
theorem event_none (f : Ev → Ev) (p q : Part) (ts : List Task) (hf : f ⟨p, []⟩ = ⟨q, ts⟩)
    (hn : ts.length ≤ Config.eventFuel) (h : ∀ t ∈ ts, ∀ rest, runTask t ⟨q, rest⟩ = ⟨q, rest⟩)
    (hp : q.mgu.inProgress = none) (hq : q.mgu.queue = []) (hU : q.portU.waiting = []) (hD : q.portD.waiting = []) :
    event f p = q := by
  simp only [event, hf, Config.requestFuel]
  rw [finish_none _ _ _ hn h hp hq, closeGroups_none_waiting _ hU hD]

/-- A request answered at once whose effect `q` leaves only examinations that find nothing. -/
theorem request_examined (r : Request) (s : State) (q : Part) (ts : List Task) (status : Status) (bytes : List Byte)
    (h : Quiet s.part) (hr : RoomU 1 s.part)
    (hc : carryOut r ⟨s.part.answering r, []⟩ =
      sendReply r.code r.tag ⟨⟨{ q with mgu := (s.part.answering r).mgu }, ts⟩, status, bytes⟩)
    (hm : q.mgu = s.part.mgu) (hU : q.portU = s.part.portU) (hD : q.portD = s.part.portD)
    (hn : ts.length ≤ Config.eventFuel)
    (hts : ∀ t ∈ ts, ∀ rest, runTask t ⟨q.sentU [answerFrame r.code r.tag status bytes], rest⟩ =
      ⟨q.sentU [answerFrame r.code r.tag status bytes], rest⟩) :
    request r s = .next (s.answer q r.code r.tag status bytes) := by
  have hq : q.mgu.queue = [] := by rw [hm]; exact h.2.1
  have hp : q.mgu.inProgress = none := by rw [hm]; exact h.2.2.1
  have h1 : sendReply r.code r.tag ⟨⟨{ q with mgu := (s.part.answering r).mgu }, ts⟩, status, bytes⟩ =
      ⟨q.sentU [answerFrame r.code r.tag status bytes], ts⟩ := by
    have hr' : ((⟨{ q with mgu := (s.part.answering r).mgu }, ts⟩ : Ev).p.port
        (Waiter.manageAnswer none (answerFrame r.code r.tag status bytes)).port).queue.length < 16 := by
      show q.portU.queue.length < 16
      rw [hU]; exact hr
    simp only [sendReply]
    rw [offer_room _ _ hr']
    simp only [enter, answerEntered, Ev.map, push_U, answered, Part.upMgu, Part.answering]
    congr 1
    simp only [Part.sentU]
    rw [← h.2.2.1, ← hm]
  simp only [request, live, h.1, Bool.false_eq_true, if_false]
  rw [event_request r _ h, hc, h1, finish_none 14 _ ts hn hts hp hq]
  rw [closeGroups_none_waiting _ (by simp [Part.sentU, hU, h]) (by simp [Part.sentU, hD, h])]
  rfl

end Sys2Proof.Machine
end

