-- ==== Sys2Proof/Laws/Notices.lean ====
section
/-! SUPPORT. What raising a notice does to NTU and to nothing else, the queue behind NOTICE READ, and what a flush of
every station does. -/

namespace Sys2Proof.Machine

/-! ### Notices -/

theorem Notice.same_iff (n : Notice) (kind : NoticeKind) (station : Option StationNo) :
    n.same kind station = true ↔ n.kind = kind ∧ n.station = station := by
  simp [Notice.same]

theorem joinNotice_eq (u : Ntu) (kind : NoticeKind) (station : Option StationNo) (subject : Subject) :
    joinNotice u kind station subject = { u with entries := (joinNotice u kind station subject).entries } := by
  unfold joinNotice
  split
  · rfl
  · split <;> rfl

@[simp] theorem joinNotice_outstanding (u : Ntu) (kind : NoticeKind) (station : Option StationNo) (subject : Subject) :
    (joinNotice u kind station subject).outstanding = u.outstanding := by
  rw [joinNotice_eq]

@[simp] theorem joinNotice_period (u : Ntu) (kind : NoticeKind) (station : Option StationNo) (subject : Subject) :
    (joinNotice u kind station subject).period = u.period := by
  rw [joinNotice_eq]

theorem markLost_append (before : List Notice) (n : Notice) :
    markLost (before ++ [n]) = before ++ [{ n with lost := true }] := by
  induction before with
  | nil => rfl
  | cons b rest ih =>
    cases rest with
    | nil => rfl
    | cons c rest => simp only [List.cons_append, markLost, List.cons.injEq, true_and]; exact ih

/-- A raise while an ATTENTION is outstanding only joins the queue. -/
theorem raise_outstanding (kind : NoticeKind) (station : Option StationNo) (subject : Subject) (e : Ev)
    (h : e.p.ntu.outstanding = true) :
    raise kind station subject e = e.map fun p => { p with ntu := joinNotice p.ntu kind station subject } := by
  simp [raise, testAttention, Ev.map, Part.upNtu, h]

theorem attention_first (u : Ntu) (kind : NoticeKind) (station : Option StationNo) (subject : Subject) (n : Nat)
    (lost b : Bool) :
    attentionFrame ⟨[⟨kind, station, subject, n, lost⟩], b, u.period, u.timer, u.number⟩ =
      ⟨0, 1, 0x83, [1, if kind.urgent then 1 else 0]⟩ := by
  cases kind <;> rfl

/-- A raise into an empty queue with nothing outstanding tells of itself when port U has room. -/
theorem raise_first (kind : NoticeKind) (station : Option StationNo) (subject : Subject) (e : Ev)
    (h : e.p.ntu.outstanding = false) (hn : e.p.ntu.entries = []) (hr : e.p.portU.queue.length < 16) :
    raise kind station subject e = e.map fun p =>
      Part.sentU { p with ntu := { p.ntu with entries := [⟨kind, station, subject, 1, false⟩], outstanding := true } }
        [⟨0, 1, 0x83, [1, if kind.urgent then 1 else 0]⟩] := by
  have hj : joinNotice e.p.ntu kind station subject =
      { e.p.ntu with entries := [⟨kind, station, subject, 1, false⟩] } := by
    simp [joinNotice, hn, Config.noticePlaces]
  simp only [raise, testAttention, Ev.map, Part.upNtu, hj, h]
  simp only [List.isEmpty_cons, Bool.or_self, Bool.false_eq_true, if_false]
  rw [offer_U _ _ rfl (by exact hr), attention_first]
  rfl

/-- Erasing one entry erases it from each run that holds it. -/
theorem filter_erase (f : Notice → Bool) (es : List Notice) (n : Notice) :
    (es.erase n).filter f = if f n then (es.filter f).erase n else es.filter f := by
  induction es with
  | nil => simp
  | cons e es ih =>
    by_cases he : e = n
    · subst he
      cases hf : f e <;> simp [hf]
    · simp only [List.erase_cons, beq_iff_eq, he, if_false, List.filter_cons, ih]
      cases hf : f e <;> cases hn : f n <;> simp [he]

/-- Removing entries from the front of the queue of R184 leaves the others in their order. -/
theorem noticeQueue_erase (u : Ntu) (n : Notice) (rest : List Notice) (h : noticeQueue u = n :: rest) :
    noticeQueue { u with entries := u.entries.erase n } = rest := by
  simp only [noticeQueue, filter_erase] at *
  cases hu : n.kind.urgent with
  | true =>
    have he : (u.entries.filter fun n => n.kind.urgent) ≠ [] := by
      intro hnil
      rw [hnil, List.nil_append] at h
      have : n ∈ u.entries.filter fun n => !n.kind.urgent := by rw [h]; simp
      simp [hu] at this
    obtain ⟨a, l, hl⟩ := List.exists_cons_of_ne_nil he
    rw [hl] at h ⊢
    simp only [List.cons_append, List.cons.injEq] at h
    obtain ⟨rfl, h⟩ := h
    simp [h]
  | false =>
    have he : (u.entries.filter fun n => n.kind.urgent) = [] := by
      cases hl : u.entries.filter fun n => n.kind.urgent with
      | nil => rfl
      | cons a l =>
        rw [hl] at h
        simp only [List.cons_append, List.cons.injEq] at h
        have : a ∈ u.entries.filter fun n => n.kind.urgent := by rw [hl]; simp
        rw [h.1] at this
        simp [hu] at this
    rw [he] at h ⊢
    simp only [List.nil_append] at h
    simp [h]

theorem noticeQueue_eraseAll (u : Ntu) (ns rest : List Notice) (h : noticeQueue u = ns ++ rest) :
    noticeQueue { u with entries := ns.foldl (fun es n => es.erase n) u.entries } = rest := by
  induction ns generalizing u with
  | nil => simpa using h
  | cons n ns ih => exact ih { u with entries := u.entries.erase n } (noticeQueue_erase u n _ h)

theorem eraseAll_sublist (es ns : List Notice) : (ns.foldl (fun es n => es.erase n) es).Sublist es := by
  induction ns generalizing es with
  | nil => exact List.Sublist.refl _
  | cons n ns ih => exact (ih _).trans List.erase_sublist

/-! ### Flushes -/

theorem foldl_upd {α : Type} {n : Nat} (f : α → α) (l : List (Fin n)) (v : Vector α n) (hl : l.Nodup) (j : Fin n) :
    (l.foldl (fun w i => upd w i f) v)[j] = if j ∈ l then f v[j] else v[j] := by
  induction l generalizing v with
  | nil => simp
  | cons i l ih =>
    have hi : i ∉ l := (List.nodup_cons.mp hl).1
    simp only [List.foldl, ih _ (List.nodup_cons.mp hl).2, upd_get, List.mem_cons]
    by_cases h : i = j
    · subst h; simp [hi]
    · have h' : ¬ j = i := fun e => h e.symm
      simp only [h, h', if_false, false_or]

/-- One change made at every station's buffer. -/
theorem foldl_upPost (f : Posting → Posting) (p : Part) :
    (allStations.foldl (fun (q : Part) st => q.upPost st f) p) =
      { p with psu := { p.psu with posts := p.psu.posts.map f } } := by
  have h : ∀ (l : List StationNo) (q : Part), l.foldl (fun (q : Part) st => q.upPost st f) q =
      { q with psu := { q.psu with posts := l.foldl (fun w st => upd w st f) q.psu.posts } } := by
    intro l
    induction l with
    | nil => intro q; rfl
    | cons st l ih => intro q; simp only [List.foldl, ih]; rfl
  have e : allStations.foldl (fun w st => upd w st f) p.psu.posts = p.psu.posts.map f := by
    apply Vector.ext
    intro i hi
    have := foldl_upd f allStations p.psu.posts (by decide) ⟨i, hi⟩
    have hm : ∀ st : StationNo, st ∈ allStations := by decide
    simpa [hm] using this
  rw [h, e]

/-- A flush of every station outside a freeze: each buffer that holds entries is covered whole. -/
theorem flushAll_eq (p : Part) (h : p.psu.freeze ≠ .frozen) :
    flushAll p = { p with psu := { p.psu with posts := p.psu.posts.map Posting.coverAll } } := by
  rw [← foldl_upPost]
  simp [flushAll, allStations, flushBuffer, Part.upPost, h]

end Sys2Proof.Machine
end

