-- ==== Sys2Proof/Laws/Water.lean ====
section
/-! SUPPORT. The hold rule, the valve rule and the grant scan where they find nothing to do, and the valve rule where it
acts at once. -/

namespace Sys2Proof.Machine

theorem removeHold_absent (st : StationNo) (r : Reason) (e : Ev) (h : e.p.stc[st].holds.has r = false) :
    removeHold st r e = e := by
  simp only [removeHold, h, Bool.not_false, if_true]

theorem addHold_present (st : StationNo) (r : Reason) (e : Ev) (h : e.p.stc[st].holds.has r = true) :
    addHold st r e = e := by
  simp only [addHold, h, if_true]

theorem foldl_id {α β : Type} (f : β → α → β) (l : List α) (b : β) (h : ∀ a ∈ l, f b a = b) : l.foldl f b = b := by
  induction l with
  | nil => rfl
  | cons a l ih =>
    simp only [List.foldl, h a (by simp)]
    exact ih fun a ha => h a (by simp [ha])

/-- No waiting need fits: a grant scan grants nothing. -/
theorem grantScan_none (e : Ev) (h : NoneFits e.p.wbu) : grantScan e = e := by
  apply foldl_id
  intro st _
  simp only [scanOne]
  split
  · rename_i need hn
    have : grantOk e.p.wbu need = false := by
      rw [Bool.eq_false_iff]
      intro hg
      simp only [grantOk, grantsOpen, available, Bool.and_eq_true, decide_eq_true_eq] at hg
      exact h st need hn ⟨hg.1.1.1, hg.1.1.2, hg.1.2, of_decide_eq_true hg.2⟩
    simp only [this, Bool.false_eq_true, if_false]
  · rfl

theorem activeStations_none (p : Part) (h : ∀ st : StationNo, p.cpl[st].active = none) : activeStations p = [] := by
  simp only [activeStations, List.filter_eq_nil_iff]
  intro st _
  simp only [h st]
  decide

/-- The hold rule with nothing cutting, no WATER held and no condition that begins. -/
theorem holdRule_rest (before : Wbu) (e : Ev) (ha : ∀ st : StationNo, e.p.cpl[st].active = none)
    (hw : ∀ st : StationNo, e.p.stc[st].holds.water = false) (hb : before.band = .low ∨ e.p.wbu.band ≠ .low)
    (hq : before.quality = .upset ∨ e.p.wbu.quality = .clear) : holdRule before e = e := by
  have h1 : ¬(before.band ≠ .low ∧ e.p.wbu.band = .low) := fun h => hb.elim h.1 fun h' => h' h.2
  have h2 : ¬(before.quality = .clear ∧ e.p.wbu.quality = .upset) := by
    rintro ⟨h3, h4⟩
    rcases hq with hq | hq
    · rw [h3] at hq; cases hq
    · rw [h4] at hq; cases hq
  unfold holdRule
  by_cases hc : holdCondition e.p.wbu = true
  · simp only [hc, if_true, activeStations_none _ ha, List.foldl, if_neg h1]
    exact if_neg h2
  · simp only [hc]
    apply foldl_id
    intro st _
    exact removeHold_absent st .water e (hw st)

/-- With no valve frame waiting and room at port D, the valve opens with its MAKEUP OPEN. -/
theorem valveRule_opens (node : Nat) (e : Ev) (hq : e.p.portD.waiting = []) (hr : e.p.portD.queue.length < 16)
    (hv : e.p.wbu.valve = .closed) (hb : e.p.wbu.band ≠ .normal) (hf : e.p.wbu.freshness = .live)
    (ha : 0 < e.p.wbu.allowance) :
    valveRule node e = e.map fun p =>
      Part.sentD { p with wbu := { p.wbu with valve := .opened } } [toPlant p.wbu.consts.plantNode true] := by
  have h1 : opensValve e.p = true := by simp [opensValve, hb, hf, ha, hv, PortState.anyWaits, hq]
  have h2 : e.p.portD.anyWaits (Waiter.isValve false) = false := by simp [PortState.anyWaits, hq]
  simp only [valveRule, h1, h2, if_true, Bool.false_eq_true, if_false]
  rw [offer_D _ _ rfl (by exact hr)]
  rfl

/-- With no valve frame waiting and room at port D, the valve closes with its MAKEUP CLOSE. -/
theorem valveRule_closes (node : Nat) (e : Ev) (hq : e.p.portD.waiting = []) (hr : e.p.portD.queue.length < 16)
    (hv : e.p.wbu.valve = .opened)
    (hc : e.p.wbu.consts.makeupOff ≤ e.p.wbu.level ∨ e.p.wbu.allowance = 0 ∨ e.p.wbu.freshness = .stale) :
    valveRule node e = e.map fun p =>
      Part.sentD { p with wbu := { p.wbu with valve := .closed } } [toPlant node false] := by
  have h1 : opensValve e.p = false := by simp [opensValve, hv]
  have h2 : e.p.portD.anyWaits (Waiter.isValve true) = false := by simp [PortState.anyWaits, hq]
  have h3 : closesValve e.p = true := by
    simp only [closesValve, hv, decide_true, Bool.true_or, Bool.true_and, Bool.or_eq_true, decide_eq_true_eq]
    tauto
  simp only [valveRule, h1, h2, h3, if_true, Bool.false_eq_true, if_false]
  rw [offer_D _ _ rfl (by exact hr)]
  rfl

/-- The valve stays. -/
theorem valveRule_stays (node : Nat) (e : Ev) (hq : e.p.portD.waiting = [])
    (h : (e.p.wbu.valve = .closed ∧ (e.p.wbu.band = .normal ∨ e.p.wbu.freshness = .stale ∨ e.p.wbu.allowance = 0))
      ∨ (e.p.wbu.valve = .opened ∧ e.p.wbu.level < e.p.wbu.consts.makeupOff ∧ 0 < e.p.wbu.allowance
          ∧ e.p.wbu.freshness = .live)) : valveRule node e = e := by
  have h2 : e.p.portD.anyWaits (Waiter.isValve true) = false := by simp [PortState.anyWaits, hq]
  have h1 : opensValve e.p = false := by
    rcases h with ⟨hv, hb | hb | hb⟩ | ⟨hv, -⟩
    · simp [opensValve, hb]
    · simp [opensValve, hb]
    · simp [opensValve, hb]
    · simp [opensValve, hv]
  have h3 : closesValve e.p = false := by
    rcases h with ⟨hv, -⟩ | ⟨hv, hl, ha, hf⟩
    · simp [closesValve, hv, h2]
    · simp [closesValve, hf, Nat.not_le.mpr hl, Nat.pos_iff_ne_zero.mp ha]
  simp only [valveRule, h1, h3, Bool.false_eq_true, if_false]

end Sys2Proof.Machine
end

