-- ==== Sys2Proof/Laws/Frames.lean ====
section
/-! SUPPORT. The lowest FREE record; frames of the cell computer and of the saws that a quiet part takes in one event, and a frame placed on an
empty frame list. -/

namespace Sys2Proof.Machine

theorem upd_eq_set {α : Type} {n : Nat} (v : Vector α n) (i : Fin n) (f : α → α) : upd v i f = v.set i (f v[i]) := rfl

theorem upd_upd {α : Type} {n : Nat} (v : Vector α n) (i : Fin n) (f g : α → α) : upd (upd v i f) i g = upd v i (g ∘ f) := by
  simp [upd]

/-! ### The lowest record -/

theorem find_finRange {n : Nat} (f : Fin n → Bool) (m : Fin n) (h : f m = true)
    (h2 : ∀ i : Fin n, i.val < m.val → f i = false) : (List.finRange n).find? f = some m := by
  rw [List.find?_eq_some_iff_getElem]
  refine ⟨h, m.val, by simp, by simp, ?_⟩
  intro j hj
  have hjlt : j < n := by omega
  have := h2 ⟨j, hjlt⟩ hj
  simp [this]

theorem findSlab_free (k : Stk) (m : SlabNo) (h : k.slabs[m] = none)
    (h2 : ∀ i : SlabNo, i.val < m.val → k.slabs[i] ≠ none) : findSlab k 0 Option.isNone = some m := by
  unfold findSlab
  refine find_finRange (n := 512) _ m ?_ ?_
  · simp only [h]; rfl
  · intro i hi
    cases hx : k.slabs[i] with
    | none => exact absurd hx (h2 i hi)
    | some y => simp only [Option.isNone_some, Bool.and_false]

/-- A record stored in the lowest FREE place. -/
theorem storeLowest_free (r : Slab) (k : Stk) (m : SlabNo) (h : findSlab k 0 Option.isNone = some m) :
    storeLowest r k = ({ k with slabs := upd k.slabs m fun _ => some r }, some m) := by
  delta storeLowest
  rw [h]

/-! ### Frames -/

theorem nodesOk_legal (d s : Byte) (h1 : d.toNat ≤ 63) (h2 : s.toNat ≤ 62) : nodesOk d s = true := by
  simp [nodesOk, Config.broadcast, Config.lastNode, h1, h2]

/-- A frame of the cell computer for a mapped station is taken by its owner. -/
theorem fromCell_mapped (f : Frame) (act : StationNo → Ev → Ev) (s : State) (st : StationNo) (h : Quiet s.part)
    (hd : f.dst.toNat ≤ 63) (hs : f.src.toNat ≤ 62) (hst : stationOf s.part f.dst = some st) :
    live s (fromCell f act) = .next (s.withPart (event (act st) s.part)) := by
  simp only [live]
  rw [if_neg (by simp [h.1])]
  simp only [fromCell, nodesOk_legal _ _ hd hs, Bool.not_true, Bool.false_eq_true, if_false,
    handAll_none .U _ h.2.2.2.1, hst]

/-- A CUT DONE of a mapped saw is taken by CPL. -/
theorem fromSaw_mapped (f : Frame) (act : StationNo → Ev → Ev) (s : State) (st : StationNo) (h : Quiet s.part)
    (hd : f.dst.toNat ≤ 63) (hs : f.src.toNat ≤ 62) (hst : stationOf s.part f.src = some st) :
    live s (fromSaw f act) = .next (s.withPart (event (act st) s.part)) := by
  simp only [live]
  rw [if_neg (by simp [h.1])]
  simp only [fromSaw, nodesOk_legal _ _ hd hs, Bool.not_true, Bool.false_eq_true, if_false,
    handAll_none .D _ h.2.2.2.2.1, hst]

/-- An act-and-forward frame of a mapped saw is acted on and forwarded. -/
theorem throughSaw_mapped (f : Frame) (act : StationNo → Ev → Ev) (s : State) (st : StationNo) (h : Quiet s.part)
    (hd : f.dst.toNat ≤ 63) (hs : f.src.toNat ≤ 62) (hst : stationOf s.part f.src = some st) :
    live s (throughSaw f act) = .next (s.withPart (event (fun e => forward .D f (act st e)) s.part)) := by
  simp only [live]
  rw [if_neg (by simp [h.1])]
  simp only [throughSaw, nodesOk_legal _ _ hd hs, Bool.not_true, Bool.false_eq_true, if_false,
    handAll_none .D _ h.2.2.2.2.1, hst]

/-- A frame placed on an empty frame list enters port D's queue when there is room, and leaves the list. -/
theorem placeSaw_alone (st : StationNo) (kind : SawKind) (ticket : Option Byte) (payload : List Byte) (e : Ev)
    (h : e.p.cpl[st].frames = []) (hr : e.p.portD.queue.length < 16) :
    placeSaw st kind ticket payload e =
      sawEntered st ⟨kind, ticket, toSaw e.p st kind.code payload⟩
        (e.map fun p => push .D (toSaw e.p st kind.code payload) p) := by
  simp only [placeSaw, h, List.isEmpty_nil, if_true, pumpAll, Ev.map]
  generalize toSaw e.p st kind.code payload = f
  have hf : (e.p.upCpl st fun c => { c with frames := c.frames ++ [⟨kind, ticket, f⟩] }).cpl[st].frames =
      [⟨kind, ticket, f⟩] := by
    simp at h; simp [h]
  have hm : hasRoom (e.p.upCpl st fun c => { c with frames := c.frames ++ [⟨kind, ticket, f⟩] }).portD = true :=
    hasRoom_of_lt _ hr
  simp only [hf, List.length_singleton, pump, hm, if_true, Ev.map]
  congr 3
  simp only [Part.upCpl, upd_upd]
  have : upd e.p.cpl st ((fun (c : Pipeline) => ({ c with frames := [] } : Pipeline)) ∘
      fun (c : Pipeline) => ({ c with frames := c.frames ++ [⟨kind, ticket, f⟩] } : Pipeline)) = e.p.cpl := by
    apply upd_id
    show ({ e.p.cpl[st] with frames := [] } : Pipeline) = e.p.cpl[st]
    rw [← h]
  rw [this]

end Sys2Proof.Machine
end

