-- ==== Sys2Proof/Laws/Clock.lean ====
section
/-! SUPPORT. What one millisecond does piece by piece: a timer that is not due, a station's expiry that is not due, and the
sample of YARDKEY (R125, R126); and when a WATER SAMPLE reaches WBU (R132). -/

namespace Sys2Proof.Machine

theorem tick_not_out (t : Timer) (h : t.NotDue) : t.tick.isOut = false := by
  cases t with
  | running n =>
    have h0 : n ≠ 0 := fun e => h.1 (by rw [e])
    have h1 : n ≠ 1 := fun e => h.2 (by rw [e])
    have : n - 1 ≠ 0 := by omega
    simp [Timer.tick, Timer.isOut, this]
  | _ => rfl

theorem eachStation_same (f : StationNo → Part → Part) (p : Part) (h : ∀ st, f st p = p) : eachStation f p = p :=
  foldl_id _ _ _ fun st _ => h st

theorem expireIf_not (out : Part → Bool) (f : Ev → Ev) (p : Part) (h : out p = false) : expireIf out f p = p := by
  simp [expireIf, h]

/-- The settle timer's millisecond and the sample that follows it. -/
theorem sampleKey_tick (level : Level) (l : Lck) : sampleKey level { l with settle := l.settle.tick } =
    (if level = l.key then { l with settle := .stopped }
    else match l.settle with
      | .stopped => { l with settle := .running 20 }
      | .paused _ => l
      | .running n =>
        if 1 < n then { l with settle := .running (n - 1) }
        else if l.hard then { l with low := 1, high := 0, invert := false, hard := false, key := level, settle := .stopped }
        else { l with key := level, settle := .stopped }) := by
  unfold sampleKey
  by_cases h : level = l.key
  · simp [h]
  · simp only [h, if_false]
    rcases l with ⟨a, b, c, d, e, f, g⟩
    cases g with
    | stopped => rfl
    | paused n => rfl
    | running n =>
      simp only [Timer.tick, reduceCtorEq, if_false]
      by_cases hn : 1 < n
      · have : (Timer.running (n - 1)).isOut = false := by simp [Timer.isOut]; omega
        simp [this, hn]
      · have : n - 1 = 0 := by omega
        simp only [this, Timer.isOut, decide_true, if_true, hn, if_false, countKey, Lck.emptied]

theorem fromPlant_iff (p : Part) (src : Byte) :
    fromPlant p src = true ↔ p.wbu.consts.plantNode ≠ 0 ∧ src.toNat = p.wbu.consts.plantNode := by
  simp [fromPlant]

/-- With plant node 0 no sample reaches WBU (R144). -/
theorem reachesWbu_noPlant (src : Byte) (act : Ev → Ev) (e : Ev) (h : e.p.wbu.consts.plantNode = 0) :
    reachesWbu src act e = e := by
  simp [reachesWbu, fromPlant, h]

end Sys2Proof.Machine
end

