-- ==== Sys2Proof/Laws/Codec.lean ====
section
/-! SUPPORT. Fields put into bytes are got back (R195), argument by argument of a request (R203). -/

namespace Sys2Proof

theorem halves_append (x : Half) : x.extractLsb' 8 8 ++ x.extractLsb' 0 8 = x := by
  apply BitVec.eq_of_toNat_eq
  have := x.isLt
  simp only [BitVec.toNat_append, BitVec.extractLsb'_toNat]
  rw [← Nat.shiftLeft_add_eq_or_of_lt (by omega)]
  simp only [Nat.shiftRight_eq_div_pow, Nat.shiftLeft_eq]
  omega

theorem quarters_append (x : Word) :
    x.extractLsb' 24 8 ++ x.extractLsb' 16 8 ++ x.extractLsb' 8 8 ++ x.extractLsb' 0 8 = x := by
  apply BitVec.eq_of_toNat_eq
  have := x.isLt
  simp only [BitVec.toNat_append, BitVec.extractLsb'_toNat]
  rw [← Nat.shiftLeft_add_eq_or_of_lt (by omega), ← Nat.shiftLeft_add_eq_or_of_lt (by omega),
    ← Nat.shiftLeft_add_eq_or_of_lt (by omega)]
  simp only [Nat.shiftRight_eq_div_pow, Nat.shiftLeft_eq]
  omega

@[simp] theorem put16_length (x : Half) : (put16 x).length = 2 := rfl

@[simp] theorem put32_length (x : Word) : (put32 x).length = 4 := rfl

@[simp] theorem get8_cons (a : Byte) (rest : List Byte) : get8 (a :: rest) = some (a, rest) := rfl

@[simp] theorem get16_put16 (x : Half) (rest : List Byte) : get16 (put16 x ++ rest) = some (x, rest) := by
  simp [get16, put16, halves_append]

@[simp] theorem get16_put16_end (x : Half) : get16 (put16 x) = some (x, []) := by
  simp [get16, put16, halves_append]

@[simp] theorem get32_put32 (x : Word) (rest : List Byte) : get32 (put32 x ++ rest) = some (x, rest) := by
  simp [get32, put32, quarters_append]

@[simp] theorem get32_put32_end (x : Word) : get32 (put32 x) = some (x, []) := by
  simp [get32, put32, quarters_append]

/-! ### The arguments of each request that carries more than one field (R203) -/

theorem getMap_args (station node cls enabled : Byte) :
    getMap (bodyArgs (.mapWrite station node cls enabled)) = some (.mapWrite station node cls enabled) := rfl

/-- A two-byte field as its bytes give it back. -/
abbrev joined16 (x : Half) : Half := x.extractLsb' 8 8 ++ x.extractLsb' 0 8

/-- A four-byte field as its bytes give it back. -/
abbrev joined32 (x : Word) : Word :=
  x.extractLsb' 24 8 ++ x.extractLsb' 16 8 ++ x.extractLsb' 8 8 ++ x.extractLsb' 0 8

theorem getClass_args (cls : Byte) (entry : ClassFields) :
    getClass (bodyArgs (.classWrite cls entry)) = some (.classWrite cls entry) := by
  have h : getClass (bodyArgs (.classWrite cls entry)) =
      some (.classWrite cls { entry with
        flow := joined16 entry.flow, lmin := joined16 entry.lmin, wmin := joined16 entry.wmin }) := rfl
  rw [h, joined16, joined16, joined16, halves_append, halves_append, halves_append]

theorem getPipe_args (percent grace : Half) (stop : Byte) :
    getPipe (bodyArgs (.pipeWrite percent grace stop)) = some (.pipeWrite percent grace stop) := by
  simp [getPipe, bodyArgs]

theorem getSlab_args (fields : SlabFields) : getSlab (bodyArgs (.slabWrite fields)) = some (.slabWrite fields) := by
  have h : getSlab (bodyArgs (.slabWrite fields)) =
      some (.slabWrite { fields with
        number := joined16 fields.number, len := joined16 fields.len, wid := joined16 fields.wid,
        parent := joined16 fields.parent, basis := joined32 fields.basis, yard := joined16 fields.yard }) := rfl
  rw [h]
  simp only [joined16, joined32, halves_append, quarters_append]

theorem getRange_args (low high : Half) (invert : Byte) :
    getRange (bodyArgs (.lockRange low high invert)) = some (.lockRange low high invert) := by
  simp [getRange, bodyArgs]

theorem getWater_args (fields : WaterFields) : getWater (bodyArgs (.waterWrite fields)) = some (.waterWrite fields) := by
  have h : getWater (bodyArgs (.waterWrite fields)) =
      some (.waterWrite { fields with
        capacity := joined32 fields.capacity, lowMark := joined32 fields.lowMark,
        hysteresis := joined32 fields.hysteresis, makeupOn := joined32 fields.makeupOn,
        makeupOff := joined32 fields.makeupOff, turbidityLimit := joined16 fields.turbidityLimit,
        dailyAllowance := joined32 fields.dailyAllowance }) := rfl
  rw [h]
  simp only [joined16, joined32, halves_append, quarters_append]

theorem getPosting_args (period : Byte) (limit : Half) :
    getPosting (bodyArgs (.postingWrite period limit)) = some (.postingWrite period limit) := by
  simp [getPosting, bodyArgs]

theorem getJobOpen_args (job : Byte) (reference : Word) :
    getJobOpen (bodyArgs (.jobOpen job reference)) = some (.jobOpen job reference) := by
  simp [getJobOpen, bodyArgs]

theorem getRates_args (water run : Word) (energy : Half) :
    getRates (bodyArgs (.ratesWrite water run energy)) = some (.ratesWrite water run energy) := by
  simp [getRates, bodyArgs]

theorem getHalf_args (f : Half → ReqBody) (x : Half) : getHalf f (put16 x) = some (f x) := by
  simp [getHalf]

/-- A request with a code that names one and arguments that decode is well formed (R14). -/
theorem decodeRequest_body (tag : Byte) (b : ReqBody) (h : decodeBody (bodyCode b).toNat (bodyArgs b) = some b) :
    decodeRequest (encodeRequest tag b) = requestOf tag b := by
  simp [decodeRequest, encodeRequest, requestOf, h]

end Sys2Proof
end

