-- ==== Sys2Proof/Laws/Holds.lean ====
section
/-! SUPPORT. What adding a reason to a hold set and taking one out can do (R28 to R30) at a station with no pause or
resume held and no program waiting, and what the hold rule finds (R143). -/

namespace Sys2Proof.Machine

theorem pauseHeld_none (p : Part) (st : StationNo) (hD : p.portD.waiting = []) (hb : p.stc[st].behind = none) :
    pauseHeld p st = false := by
  simp only [pauseHeld, PortState.anyWaits, hD, hb]
  rfl

/-- A reason joins the hold set of a station that is not RUNNING. -/
theorem addHold_joins (p : Part) (ts : List Task) (st : StationNo) (r : Reason) (h : p.stc[st].holds.has r = false)
    (h2 : p.stc[st].state ≠ .running) :
    addHold st r ⟨p, ts⟩ =
      ⟨{ p with stc := p.stc.set st { p.stc[st] with holds := p.stc[st].holds.put r true } }, ts⟩ := by
  simp only [addHold, h, Bool.false_eq_true, if_false, h2]
  rfl

/-- A reason that joins the hold set of a RUNNING station holds it. -/
theorem addHold_holds (p : Part) (ts : List Task) (st : StationNo) (r : Reason) (h : p.stc[st].holds.has r = false)
    (h2 : p.stc[st].state = .running) (hD : p.portD.waiting = []) (hb : p.stc[st].behind = none)
    (hp : programWaits p.cpl[st] = false) (hr : p.portD.queue.length < 16) :
    addHold st r ⟨p, ts⟩ = ⟨Part.sentD
      { p with
        stc := p.stc.set st { p.stc[st] with holds := p.stc[st].holds.put r true, state := .held }
        cpl := p.cpl.set st { p.cpl[st] with overrun := p.cpl[st].overrun.pause } }
      [⟨BitVec.ofNat 8 p.map[st].node, 1, 0x45, []⟩], ts⟩ := by
  simp only [addHold, h, Bool.false_eq_true, if_false, h2, if_true, Ev.map]
  generalize hB : (((p.upStc st fun c => { c with holds := c.holds.put r true }).upStc st fun c =>
    { c with state := .held }).upCpl st fun c => { c with overrun := c.overrun.pause }) = B
  have b1 : pauseHeld B st = false := by
    apply pauseHeld_none
    · rw [← hB]; exact hD
    · rw [← hB]; simp; simpa using hb
  have b2 : programWaits B.cpl[st] = false := by
    rw [← hB]; simp [programWaits]; simpa [programWaits] using hp
  simp only [formPause, b1, b2, Bool.false_eq_true, if_false]
  rw [offerFrame_room _ _ _ (by show B.portD.queue.length < 16; rw [← hB]; exact hr)]
  subst hB
  simp only [Ev.map, Waiter.port, push_D, pauseFrame, toSaw, originate, Part.upStc, Part.upCpl, upd_upd]
  rfl

/-- The last reason leaves the hold set of a HELD station: it is RUNNING again. -/
theorem removeHold_resumes (p : Part) (ts : List Task) (st : StationNo) (r : Reason)
    (h : p.stc[st].holds.has r = true) (he : (p.stc[st].holds.put r false).isEmpty = true)
    (h2 : p.stc[st].state = .held) (hD : p.portD.waiting = []) (hb : p.stc[st].behind = none)
    (hp : programWaits p.cpl[st] = false) (hr : p.portD.queue.length < 16) :
    removeHold st r ⟨p, ts⟩ = ⟨Part.sentD
      { p with
        stc := p.stc.set st { p.stc[st] with holds := p.stc[st].holds.put r false, state := .running }
        cpl := p.cpl.set st { p.cpl[st] with overrun := p.cpl[st].overrun.start } }
      [⟨BitVec.ofNat 8 p.map[st].node, 1, 0x46, []⟩], ts⟩ := by
  have g1 : (p.upStc st fun c => { c with holds := c.holds.put r false }).stc[st].holds.isEmpty = true := by
    simp only [Part.upStc_stc, upd_same, he]
  have g2 : (p.upStc st fun c => { c with holds := c.holds.put r false }).stc[st].state = .held := by
    simp only [Part.upStc_stc, upd_same, h2]
  simp only [removeHold, h, Bool.not_true, Bool.false_eq_true, if_false, Ev.map, g1, g2, if_true]
  generalize hB : (((p.upStc st fun c => { c with holds := c.holds.put r false }).upStc st fun c =>
    { c with state := .running }).upCpl st fun c =>
      if programWaits c then c else { c with overrun := c.overrun.start }) = B
  have b1 : pauseHeld B st = false := by
    apply pauseHeld_none
    · rw [← hB]; exact hD
    · rw [← hB]; simp; simpa using hb
  have e : (upd p.cpl st fun c => if programWaits c then c else { c with overrun := c.overrun.start }) =
      p.cpl.set st { p.cpl[st] with overrun := p.cpl[st].overrun.start } := by
    simp only [upd_eq_set, hp, Bool.false_eq_true, if_false]
  have b2 : programWaits B.cpl[st] = false := by
    rw [← hB]; simp only [Part.upCpl_cpl, Part.upStc_cpl, e]; simp [programWaits]; simpa [programWaits] using hp
  simp only [formPause, b1, b2, Bool.false_eq_true, if_false]
  rw [offerFrame_room _ _ _ (by show B.portD.queue.length < 16; rw [← hB]; exact hr)]
  subst hB
  simp only [Ev.map, Waiter.port, push_D, pauseFrame, toSaw, originate, Part.upStc, Part.upCpl, upd_upd, e]
  rfl

/-- A reason leaves a hold set, and another stays or the station is not HELD: an IDLE station whose hold set is empty
is examined. -/
theorem removeHold_leaves (p : Part) (ts : List Task) (st : StationNo) (r : Reason)
    (h : p.stc[st].holds.has r = true)
    (h2 : (p.stc[st].holds.put r false).isEmpty = false ∨ p.stc[st].state ≠ .held) :
    removeHold st r ⟨p, ts⟩ =
      ⟨{ p with stc := p.stc.set st { p.stc[st] with holds := p.stc[st].holds.put r false } },
        if (p.stc[st].holds.put r false).isEmpty = true ∧ p.stc[st].state = .idle then ts ++ [.station st] else ts⟩ := by
  have g1 : (p.upStc st fun c => { c with holds := c.holds.put r false }).stc[st].holds = p.stc[st].holds.put r false := by
    simp only [Part.upStc_stc, upd_same]
  have g2 : (p.upStc st fun c => { c with holds := c.holds.put r false }).stc[st].state = p.stc[st].state := by
    simp only [Part.upStc_stc, upd_same]
  have g3 : (p.upStc st fun c => { c with holds := c.holds.put r false }) =
      { p with stc := p.stc.set st { p.stc[st] with holds := p.stc[st].holds.put r false } } := rfl
  simp only [removeHold, h, Bool.not_true, Bool.false_eq_true, if_false, Ev.map, g1, g2]
  rw [g3]
  by_cases he : (p.stc[st].holds.put r false).isEmpty = true
  · have h3 : p.stc[st].state ≠ .held := h2.resolve_left (by rw [he]; decide)
    simp only [he, h3, Bool.not_true, Bool.false_eq_true, if_false, true_and]
    split <;> rfl
  · rw [Bool.not_eq_true] at he
    simp only [he, Bool.not_false, if_true, Bool.false_eq_true, false_and, if_false]

/-- WATER leaves the hold set of the one station that holds it as the hold rule goes through the stations (R143). -/
theorem removeHold_water_only (l : List StationNo) (st : StationNo) (e q : Ev) (hm : st ∈ l) (hn : l.Nodup)
    (he : removeHold st .water e = q) (h1 : ∀ x, x ≠ st → e.p.stc[x].holds.water = false)
    (h2 : ∀ x, x ≠ st → q.p.stc[x].holds.water = false) : l.foldl (fun x st => removeHold st .water x) e = q := by
  induction l with
  | nil => cases hm
  | cons a l ih =>
    simp only [List.foldl]
    by_cases ha : a = st
    · subst ha
      rw [he]
      exact foldl_id _ _ _ fun x hx =>
        removeHold_absent _ _ _ (h2 x (by rintro rfl; exact (List.nodup_cons.mp hn).1 hx))
    · rw [removeHold_absent a .water e (h1 a ha)]
      exact ih (by simpa [Ne.symm ha] using hm) (List.nodup_cons.mp hn).2

/-- One station is cutting. -/
theorem activeStations_one (p : Part) (st : StationNo) (h : p.cpl[st].active ≠ none)
    (h2 : ∀ x : StationNo, x ≠ st → p.cpl[x].active = none) : activeStations p = [st] := by
  have h3 : p.cpl[st].active.isSome = true := Option.isSome_iff_ne_none.mpr h
  have : (fun x : StationNo => p.cpl[x].active.isSome) = fun x => decide (x = st) := by
    funext x
    by_cases hx : x = st
    · subst hx; simp only [h3, decide_true]
    · simp only [h2 x hx, hx]; rfl
  simp only [activeStations, this]
  clear this h3 h2 h
  revert st; decide

end Sys2Proof.Machine
end

