-- ==== Sys2Proof/Laws/Kept.lean ====
section
/-! SUPPORT. What almost every operation leaves as it is: the tables and settings, the valve with what it depends on, and
whether the house job is OPEN. One equation per operation. -/

namespace Sys2Proof.Machine

/-- The tables and settings, the valve, the allowance, freshness, how many MAKEUP OPENs wait for port D (and in port
U's line, where none belongs), and whether job 0 is OPEN. -/
structure Kept where
  settings : Settings
  valve : Valve
  allowance : Nat
  freshness : Freshness
  opens : Nat
  stray : Nat
  house : Bool
  deriving DecidableEq, Repr

/-- Job 0 is OPEN. -/
def Jau.houseOpen (u : Jau) : Bool := decide (u.jobs[0].state = .opened)

def Part.kept (p : Part) : Kept :=
  ⟨p.settings, p.wbu.valve, p.wbu.allowance, p.wbu.freshness, p.portD.waits (Waiter.isValve true),
    p.portU.waits (Waiter.isValve true), p.jau.houseOpen⟩

/-! ### Updates of one place -/

@[simp] theorem upStc_kept (p : Part) (st : StationNo) (f : StationCtx → StationCtx) : (p.upStc st f).kept = p.kept := rfl
@[simp] theorem upRing_kept (p : Part) (st : StationNo) (f : Ring → Ring) : (p.upRing st f).kept = p.kept := rfl
@[simp] theorem upCpl_kept (p : Part) (st : StationNo) (f : Pipeline → Pipeline) : (p.upCpl st f).kept = p.kept := rfl
@[simp] theorem upSlab_kept (p : Part) (n : SlabNo) (f : Option Slab → Option Slab) : (p.upSlab n f).kept = p.kept := rfl
@[simp] theorem upStk_kept (p : Part) (f : Stk → Stk) : (p.upStk f).kept = p.kept := rfl
@[simp] theorem upPost_kept (p : Part) (st : StationNo) (f : Posting → Posting) : (p.upPost st f).kept = p.kept := rfl

theorem houseOpen_upd (u : Jau) (n : JobNo) (f : Job → Job)
    (h : n = 0 → ∀ j, decide ((f j).state = .opened) = decide (j.state = .opened)) :
    Jau.houseOpen { u with jobs := upd u.jobs n f } = u.houseOpen := by
  by_cases h0 : n = 0
  · have e : (upd u.jobs n f)[0] = f u.jobs[0] := by subst h0; exact upd_same u.jobs 0 f
    simp only [Jau.houseOpen, e]
    exact h h0 _
  · have e : (upd u.jobs n f)[0] = u.jobs[0] := upd_other u.jobs n 0 f h0
    simp only [Jau.houseOpen, e]

theorem upJob_kept (p : Part) (n : JobNo) (f : Job → Job)
    (h : n = 0 → ∀ j, decide ((f j).state = .opened) = decide (j.state = .opened)) : (p.upJob n f).kept = p.kept := by
  simp only [Part.kept, Part.upJob, houseOpen_upd _ _ _ h]
  rfl

theorem upWbu_kept (p : Part) (f : Wbu → Wbu) (h1 : ∀ u, (f u).consts = u.consts) (h2 : ∀ u, (f u).valve = u.valve)
    (h3 : ∀ u, (f u).allowance = u.allowance) (h4 : ∀ u, (f u).freshness = u.freshness) :
    (p.upWbu f).kept = p.kept := by
  simp only [Part.kept, Part.settings, Part.upWbu, h1, h2, h3, h4]

theorem upNtu_kept (p : Part) (f : Ntu → Ntu) (h : ∀ u, (f u).period = u.period) : (p.upNtu f).kept = p.kept := by
  simp only [Part.kept, Part.settings, Part.upNtu, h]

theorem upPsu_kept (p : Part) (f : Psu → Psu) (h1 : ∀ u, (f u).period = u.period) (h2 : ∀ u, (f u).limit = u.limit) :
    (p.upPsu f).kept = p.kept := by
  simp only [Part.kept, Part.settings, Part.upPsu, h1, h2]

theorem upMgu_kept (p : Part) (f : Mgu → Mgu) (h : ∀ u, (f u).cause = u.cause) : (p.upMgu f).kept = p.kept := by
  simp only [Part.kept, Part.settings, Part.upMgu, h]

theorem upPort_kept (p : Part) (x : Port) (f : PortState → PortState)
    (h : ∀ q, (f q).waits (Waiter.isValve true) = q.waits (Waiter.isValve true)) :
    (p.upPort x f).kept = p.kept := by
  cases x <;> simp only [Part.kept, Part.settings, Part.upPort, h]

theorem foldl_kept {α : Type} (f : Ev → α → Ev) (l : List α) (e : Ev) (h : ∀ e a, (f e a).p.kept = e.p.kept) :
    (l.foldl f e).p.kept = e.p.kept := by
  induction l generalizing e with
  | nil => rfl
  | cons a l ih => simp only [List.foldl, ih, h]

theorem foldl_part_kept {α : Type} (f : Part → α → Part) (l : List α) (p : Part)
    (h : ∀ p a, (f p a).kept = p.kept) : (l.foldl f p).kept = p.kept := by
  induction l generalizing p with
  | nil => rfl
  | cons a l ih => simp only [List.foldl, ih, h]

/-! ### Queues and waiting lines -/

@[simp] theorem countDrop_kept (x : Port) (p : Part) : (countDrop x p).kept = p.kept :=
  upPort_kept p x _ fun _ => rfl

@[simp] theorem push_kept (x : Port) (f : Frame) (p : Part) : (push x f p).kept = p.kept :=
  upPort_kept p x _ fun _ => rfl

@[simp] theorem popSent_kept (x : Port) (p : Part) : (popSent x p).kept = p.kept :=
  upPort_kept p x _ fun _ => rfl

theorem join_kept (w : Waiter) (p : Part) (h : Waiter.isValve true w = false) : (join w p).kept = p.kept := by
  refine upPort_kept p w.port _ fun q => ?_
  simp [PortState.waits, h]

theorem discard_kept (x : Port) (what : Waiter → Bool) (p : Part)
    (h : ∀ w, what w = true → Waiter.isValve true w = false) : (discard x what p).kept = p.kept := by
  refine upPort_kept p x _ fun q => ?_
  simp only [PortState.waits, List.countP_filter]
  refine List.countP_congr fun w _ => ?_
  cases hw : what w.who with
  | true => simp [h _ hw]
  | false => simp

theorem replaceWaiter_kept (x : Port) (what : Waiter → Bool) (f : Waiter → Waiter) (p : Part)
    (h : ∀ w, what w = true → Waiter.isValve true (f w) = Waiter.isValve true w) :
    (replaceWaiter x what f p).kept = p.kept := by
  refine upPort_kept p x _ fun q => ?_
  simp only [PortState.waits, List.countP_map]
  refine List.countP_congr fun w _ => ?_
  simp only [Function.comp]
  split
  · rw [h _ ‹_›]
  · rfl

@[simp] theorem closeGroups_kept (p : Part) : (closeGroups p).kept = p.kept := by
  have h : ∀ q : PortState, q.closeGroup.waits (Waiter.isValve true) = q.waits (Waiter.isValve true) := by
    intro q
    simp only [PortState.waits, PortState.closeGroup, List.countP_map]
    rfl
  simp only [Part.kept, closeGroups, h]
  rfl

@[simp] theorem forward_kept (x : Port) (f : Frame) (e : Ev) : (forward x f e).p.kept = e.p.kept := by
  unfold forward; split <;> simp

theorem offerFrame_kept (w : Waiter) (f : Frame) (e : Ev) (h : Waiter.isValve true w = false) :
    (offerFrame w f e).p.kept = e.p.kept := by
  unfold offerFrame; split
  · simp
  · simp [join_kept _ _ h]

/-! ### Entries and frame lists -/

@[simp] theorem programEntered_kept (st : StationNo) (e : Ev) : (programEntered st e).p.kept = e.p.kept := by
  have h : ∀ p : Part, (if p.stc[st].state = .running then p.upCpl st fun c => { c with overrun := c.overrun.start }
      else p).kept = p.kept := by intro p; split <;> rfl
  unfold programEntered; simp only
  split
  · exact (offerFrame_kept _ _ _ rfl).trans ((upStc_kept _ st _).trans (h e.p))
  · exact h e.p

@[simp] theorem stopEntered_kept (st : StationNo) (f : SawFrame) (p : Part) : (stopEntered st f p).kept = p.kept := by
  unfold stopEntered; split
  · split <;> simp
  · rfl

@[simp] theorem sawEntered_kept (st : StationNo) (f : SawFrame) (e : Ev) : (sawEntered st f e).p.kept = e.p.kept := by
  unfold sawEntered; split <;> simp

@[simp] theorem pump_kept (st : StationNo) (n : Nat) (e : Ev) : (pump st n e).p.kept = e.p.kept := by
  induction n generalizing e with
  | zero => rfl
  | succ n ih =>
    simp only [pump]
    split
    · rfl
    · split
      · simp [ih]
      · simp [join_kept (.saw st) _ rfl]

@[simp] theorem pumpAll_kept (st : StationNo) (e : Ev) : (pumpAll st e).p.kept = e.p.kept := by simp [pumpAll]

@[simp] theorem slotEntered_kept (st : StationNo) (slot : SlotNo) (e : Ev) :
    (slotEntered st slot e).p.kept = e.p.kept := by simp [slotEntered]

@[simp] theorem holdEntered_kept (st : StationNo) (now : Bool) (e : Ev) :
    (holdEntered st now e).p.kept = e.p.kept := by
  unfold holdEntered; split <;> split <;> simp

@[simp] theorem answered_kept (p : Part) : (answered p).kept = p.kept := rfl

@[simp] theorem answerEntered_kept (next : Option Frame) (e : Ev) : (answerEntered next e).p.kept = e.p.kept := by
  unfold answerEntered; split
  · simp
  · split
    · simp
    · simp [join_kept (.manageAnswer none _) _ rfl]

theorem enter_kept (w : Waiter) (e : Ev) (h : Waiter.isValve true w = false) : (enter w e).p.kept = e.p.kept := by
  cases w with
  | valve opens f =>
    cases opens with
    | true => cases h
    | false =>
      simp only [enter, Ev.map_p]
      exact (upWbu_kept _ _ (fun _ => rfl) (fun _ => rfl) (fun _ => rfl) (fun _ => rfl)).trans (push_kept _ _ _)
  | _ => simp [enter]

theorem offer_kept (w : Waiter) (e : Ev) (h : Waiter.isValve true w = false) : (offer w e).p.kept = e.p.kept := by
  unfold offer; split
  · exact enter_kept w e h
  · simp [join_kept _ _ h]

@[simp] theorem placeSaw_kept (st : StationNo) (kind : SawKind) (ticket : Option Byte) (payload : List Byte) (e : Ev) :
    (placeSaw st kind ticket payload e).p.kept = e.p.kept := by
  unfold placeSaw; simp only; split <;> simp

@[simp] theorem dropSaw_kept (st : StationNo) (what : SawFrame → Bool) (e : Ev) :
    (dropSaw st what e).p.kept = e.p.kept := by
  have h : ∀ p, (discard .D (Waiter.isSawOf st) p).kept = p.kept := fun p =>
    discard_kept .D _ p fun w hw => by cases w <;> first | rfl | cases hw
  unfold dropSaw; simp only; split <;> simp [h]

/-! ### Notices -/

@[simp] theorem testAttention_kept (e : Ev) : (testAttention e).p.kept = e.p.kept := by
  unfold testAttention; split
  · rfl
  · rw [offer_kept _ _ rfl]; exact upNtu_kept _ _ fun _ => rfl

@[simp] theorem raise_kept (kind : NoticeKind) (station : Option StationNo) (subject : Subject) (e : Ev) :
    (raise kind station subject e).p.kept = e.p.kept := by
  simp only [raise, testAttention_kept, Ev.map_p]
  exact upNtu_kept _ _ fun u => joinNotice_period u kind station subject

@[simp] theorem reRaise_kept (kind : NoticeKind) (p : Part) : (reRaise kind p).kept = p.kept := by
  unfold reRaise; split
  · exact upNtu_kept _ _ fun u => joinNotice_period u kind none .none
  · rfl

@[simp] theorem ackAttention_kept (e : Ev) : (ackAttention e).p.kept = e.p.kept := by
  simp only [ackAttention, testAttention_kept, Ev.map_p, reRaise_kept]
  rw [discard_kept _ _ _ (fun w hw => by cases w <;> first | rfl | cases hw)]
  exact upNtu_kept _ _ fun _ => rfl

@[simp] theorem formSummary_kept (e : Ev) : (formSummary e).p.kept = e.p.kept := by
  have h : (e.p.upNtu fun u => { u with number := (u.number + 1) % 256 }).kept = e.p.kept :=
    upNtu_kept _ _ fun _ => rfl
  unfold formSummary; simp only; split
  · simp only [Ev.map_p]
    rw [replaceWaiter_kept _ _ _ _ (fun w hw => by cases w <;> first | rfl | cases hw), h]
  · rw [offer_kept _ _ rfl]; exact h

@[simp] theorem summaryExpired_kept (e : Ev) : (summaryExpired e).p.kept = e.p.kept := by
  unfold summaryExpired; split
  · rw [formSummary_kept]; exact upNtu_kept _ _ fun _ => rfl
  · rfl
  · rfl

/-! ### Jobs and posting -/

theorem settled_opened (j : Job) : decide (j.settled.state = .opened) = decide (j.state = .opened) := by
  unfold Job.settled; split
  · rename_i h; simp [h.1]
  · rfl

@[simp] theorem lowerJob_kept (n : JobNo) (p : Part) : (lowerJob n p).kept = p.kept :=
  upJob_kept _ _ _ fun _ j => by rw [Job.lower, settled_opened]

@[simp] theorem setAcc_state (j : Job) (c : CostCtx) (a : Acc) : (j.setAcc c a).state = j.state := by cases c <;> rfl

theorem apply_opened (j : Job) (x : Entry) : decide ((j.apply x).state = .opened) = decide (j.state = .opened) := by
  simp only [Job.apply, settled_opened, setAcc_state]

@[simp] theorem applyEntry_kept (st : StationNo) (x : Entry) (e : Ev) : (applyEntry st x e).p.kept = e.p.kept := by
  have h : (e.p.upJob x.target.job fun j => j.apply x).kept = e.p.kept := upJob_kept _ _ _ fun _ j => apply_opened j x
  unfold applyEntry; simp only; split <;> simp [h]

@[simp] theorem setTarget_kept (st : StationNo) (t : Target) (p : Part) : (setTarget st t p).kept = p.kept := rfl

@[simp] theorem flushBuffer_kept (st : StationNo) (p : Part) : (flushBuffer st p).kept = p.kept := by
  unfold flushBuffer; split <;> simp

@[simp] theorem flushAll_kept (p : Part) : (flushAll p).kept = p.kept := foldl_part_kept _ _ _ (by simp)

@[simp] theorem batchTest_kept (st : StationNo) (p : Part) : (batchTest st p).kept = p.kept := by
  unfold batchTest; split <;> simp

@[simp] theorem formEntry_kept (st : StationNo) (x : Entry) (p : Part) : (formEntry st x p).kept = p.kept := by
  simp only [formEntry, batchTest_kept]
  refine (upJob_kept _ _ _ ?_).trans (upPost_kept _ _ _)
  exact fun _ _ => rfl

@[simp] theorem applyFront_kept (st : StationNo) (e : Ev) : (applyFront st e).p.kept = e.p.kept := by
  unfold applyFront; split <;> simp

@[simp] theorem drainDone_kept (st : StationNo) (p : Part) : (drainDone st p).kept = p.kept := rfl

@[simp] theorem lowerCovered_kept (st : StationNo) (p : Part) : (lowerCovered st p).kept = p.kept := by
  unfold lowerCovered; simp only; split <;> simp

@[simp] theorem drainOnce_kept (st : StationNo) (e : Ev) : (drainOnce st e).p.kept = e.p.kept := by
  unfold drainOnce; split <;> simp

@[simp] theorem chargeEntry_kept (st : StationNo) (t : Target) (material waste : Nat) (e : Ev) :
    (chargeEntry st t material waste e).p.kept = e.p.kept := by
  have h : ∀ (p : Part) (c : Prop) [Decidable c], ((if c then lowerCovered st else id) p).kept = p.kept := by
    intro p c _; split <;> simp
  unfold chargeEntry; simp only
  split <;> simp [h]

theorem mergeSample_kept (st : StationNo) (w en r : Nat) (e e1 : Ev) (h : mergeSample st w en r e = some e1) :
    e1.p.kept = e.p.kept := by
  unfold mergeSample at h
  simp only at h
  split at h
  · cases h; split <;> simp
  · cases h

@[simp] theorem postSample_kept (st : StationNo) (w en r : Nat) (e : Ev) :
    (postSample st w en r e).p.kept = e.p.kept := by
  unfold postSample; simp only
  split
  · split
    · exact mergeSample_kept _ _ _ _ _ _ ‹_›
    · simp
  · split
    · simp
    · split
      · exact mergeSample_kept _ _ _ _ _ _ ‹_›
      · simp

@[simp] theorem coalesceExpired_kept (st : StationNo) (p : Part) : (coalesceExpired st p).kept = p.kept := by
  unfold coalesceExpired; split <;> simp

@[simp] theorem freezeNow_kept (p : Part) : (freezeNow p).kept = p.kept := rfl

@[simp] theorem thaw_kept (p : Part) : (thaw p).kept = p.kept := rfl

@[simp] theorem thawAndFlush_kept (e : Ev) : (thawAndFlush e).p.kept = e.p.kept := by
  unfold thawAndFlush; rw [foldl_kept _ _ _ (by simp)]; simp

@[simp] theorem freezeExpired_kept (e : Ev) : (freezeExpired e).p.kept = e.p.kept := by
  unfold freezeExpired; split
  · split <;> simp
  · rfl
  · rfl

end Sys2Proof.Machine
end

