-- ==== Sys2Proof/Laws/KeptBlocks.lean ====
section
/-! SUPPORT. What the blocks' larger operations leave as it is (Laws/Kept.lean): stations, grants, rings, saws, the
beginning of a line reset and the examinations that end an event. -/

namespace Sys2Proof.Machine

/-! ### Stations -/

@[simp] theorem unstage_kept (st : StationNo) (n : Byte) (e : Ev) : (unstage st n e).p.kept = e.p.kept := by
  unfold unstage; simp only; split <;> simp

@[simp] theorem unstageOnDeck_kept (st : StationNo) (e : Ev) : (unstageOnDeck st e).p.kept = e.p.kept := by
  unfold unstageOnDeck; split
  · split <;> simp
  · rfl

@[simp] theorem discardPause_kept (st : StationNo) (p : Part) : (discardPause st p).kept = p.kept := by
  unfold discardPause
  exact (discard_kept .D _ _ fun w hw => by cases w <;> first | rfl | cases hw).trans (upStc_kept _ _ _)

@[simp] theorem formPause_kept (st : StationNo) (resumes : Bool) (e : Ev) :
    (formPause st resumes e).p.kept = e.p.kept := by
  unfold formPause; split
  · simp
  · split
    · simp
    · exact offerFrame_kept _ _ _ rfl

@[simp] theorem addHold_kept (st : StationNo) (r : Reason) (e : Ev) : (addHold st r e).p.kept = e.p.kept := by
  unfold addHold; simp only; split
  · rfl
  · split <;> simp

@[simp] theorem removeHold_kept (st : StationNo) (r : Reason) (e : Ev) : (removeHold st r e).p.kept = e.p.kept := by
  unfold removeHold; simp only; split
  · rfl
  · split
    · simp
    · split
      · simp
      · split <;> simp

@[simp] theorem stopEntry_kept (st : StationNo) (a : Active) (why : StopReason) (e : Ev) :
    (stopEntry st a why e).p.kept = e.p.kept := by simp [stopEntry]

@[simp] theorem panelAnswer_kept (st : StationNo) (b : Bool) (e : Ev) : (panelAnswer st b e).p.kept = e.p.kept := by
  unfold panelAnswer; simp only; split
  · refine replaceWaiter_kept .D _ _ _ fun w _ => ?_
    cases w <;> rfl
  · exact offer_kept _ _ rfl

@[simp] theorem panelClaimed_kept (st : StationNo) (e : Ev) : (panelClaimed st e).p.kept = e.p.kept := by
  unfold panelClaimed; simp only; split
  · split <;> simp
  · simp

@[simp] theorem panelReleased_kept (st : StationNo) (e : Ev) : (panelReleased st e).p.kept = e.p.kept := by
  unfold panelReleased; split <;> simp

theorem commanded_kept (st : StationNo) (code : Byte) (act : Ev → Ev) (status : Part → Status) (e : Ev)
    (h : ∀ e, (act e).p.kept = e.p.kept) : (commanded st code act status e).p.kept = e.p.kept := by
  unfold commanded; split
  · rfl
  · exact (offer_kept _ _ rfl).trans (h e)

@[simp] theorem holdCommand_kept (st : StationNo) (e : Ev) : (holdCommand st e).p.kept = e.p.kept := by
  unfold holdCommand; split <;> simp

@[simp] theorem resumeCommand_kept (st : StationNo) (e : Ev) : (resumeCommand st e).p.kept = e.p.kept := by
  unfold resumeCommand; split <;> simp

@[simp] theorem abortCommand_kept (st : StationNo) (e : Ev) : (abortCommand st e).p.kept = e.p.kept := by
  unfold abortCommand; split
  · split <;> simp
  · rfl

@[simp] theorem overrunExpired_kept (st : StationNo) (e : Ev) : (overrunExpired st e).p.kept = e.p.kept := by
  unfold overrunExpired; split <;> simp

/-! ### Water -/

@[simp] theorem grant_kept (st : StationNo) (e : Ev) : (grant st e).p.kept = e.p.kept := by
  unfold grant; simp only; split <;> rfl

@[simp] theorem requestWater_kept (st : StationNo) (need : Nat) (e : Ev) :
    (requestWater st need e).p.kept = e.p.kept := by
  unfold requestWater; split
  · simp
  · rfl

@[simp] theorem scanOne_kept (e : Ev) (st : StationNo) : (scanOne e st).p.kept = e.p.kept := by
  unfold scanOne; split
  · split <;> simp
  · rfl

@[simp] theorem grantScan_kept (e : Ev) : (grantScan e).p.kept = e.p.kept := foldl_kept _ _ _ scanOne_kept

@[simp] theorem releaseWater_kept (n : Nat) (b : Bool) (e : Ev) : (releaseWater n b e).p.kept = e.p.kept := by
  unfold releaseWater; simp only; split
  · rfl
  · exact (grantScan_kept _).trans rfl

@[simp] theorem debit_kept (st : StationNo) (w : Nat) (p : Part) : (debit st w p).kept = p.kept := by
  unfold debit; split <;> rfl

@[simp] theorem holdRule_kept (before : Wbu) (e : Ev) : (holdRule before e).p.kept = e.p.kept := by
  have h1 : ∀ e : Ev, ((activeStations e.p).foldl (fun x st => addHold st .water x) e).p.kept = e.p.kept := fun e =>
    foldl_kept _ _ _ (by simp)
  have h2 : ∀ e : Ev, (allStations.foldl (fun x st => removeHold st .water x) e).p.kept = e.p.kept := fun e =>
    foldl_kept _ _ _ (by simp)
  unfold holdRule; simp only; split
  · split <;> split <;> simp [h1]
  · exact h2 e

/-! ### Stock and rings -/

@[simp] theorem returnRecords_kept (n : Nat) (p : Part) : (returnRecords n p).kept = p.kept := rfl

@[simp] theorem undoClaim_kept (st : StationNo) (o : OrderRec) (b : Bool) (e : Ev) :
    (undoClaim st o b e).p.kept = e.p.kept := by
  have h : ∀ p : Part, (p.upWbu fun u => { u with waitList := upd u.waitList st fun _ => none }).kept = p.kept :=
    fun _ => rfl
  unfold undoClaim; simp only [releaseWater_kept, Ev.map_p]
  split <;> split
  · exact (h _).trans ((lowerJob_kept _ _).trans rfl)
  · exact (h _).trans ((lowerJob_kept _ _).trans rfl)
  · exact (lowerJob_kept _ _).trans rfl
  · exact (lowerJob_kept _ _).trans rfl

@[simp] theorem closeInRing_kept (st : StationNo) (slot : SlotNo) (o : CutOutcome) (b : Bool) (e : Ev) :
    (closeInRing st slot o b e).p.kept = e.p.kept := by
  unfold closeInRing; simp only; split
  · rfl
  · split
    · rfl
    · split <;> split <;> simp [offer_kept (.spentSlot st slot _) _ rfl]

@[simp] theorem closeAll_kept (st : StationNo) (l : List (SlotNo × CutOutcome)) (b : Bool) (e : Ev) :
    (closeAll st l b e).p.kept = e.p.kept := foldl_kept _ _ _ (by simp)

@[simp] theorem refuseOpenChain_kept (st : StationNo) (e : Ev) : (refuseOpenChain st e).p.kept = e.p.kept := by
  unfold refuseOpenChain; split <;> simp

@[simp] theorem refuseArrival_kept (st : StationNo) (f : OrderFields) (o : CutOutcome) (e : Ev) :
    (refuseArrival st f o e).p.kept = e.p.kept := by
  unfold refuseArrival; split
  · rfl
  · exact (refuseOpenChain_kept _ _).trans (offer_kept _ _ rfl)

@[simp] theorem takeOrder_kept (st : StationNo) (f : OrderFields) (e : Ev) : (takeOrder st f e).p.kept = e.p.kept := by
  unfold takeOrder; simp only; split
  · simp
  · split
    · simp
    · split <;> rfl

@[simp] theorem claimMember_kept (st : StationNo) (p : Part) (o : OrderRec) : (claimMember st p o).kept = p.kept := by
  unfold claimMember; simp only
  split
  · refine (upJob_kept _ _ _ ?_).trans rfl
    exact fun _ _ => rfl
  · exact upJob_kept _ _ _ fun _ _ => rfl

@[simp] theorem makeClaim_kept (st : StationNo) (c : Chain) (ms : List OrderRec) (g : Progress) (p : Part) :
    (makeClaim st c ms g p).kept = p.kept := by
  unfold makeClaim; simp only
  exact foldl_part_kept _ _ _ (claimMember_kept st)

@[simp] theorem examineClaim_kept (st : StationNo) (e : Ev) : (examineClaim st e).p.kept = e.p.kept := by
  unfold examineClaim; simp only; split
  · rfl
  · split
    · rfl
    · split <;> simp

@[simp] theorem closeOnDeck_kept (st : StationNo) (o : CutOutcome) (b : Bool) (e : Ev) :
    (closeOnDeck st o b e).p.kept = e.p.kept := by
  unfold closeOnDeck; simp only; split
  · rfl
  · exact (offer_kept _ _ rfl).trans (by simp)

@[simp] theorem leaveWaitList_kept (st : StationNo) (p : Part) : (leaveWaitList st p).kept = p.kept := rfl

@[simp] theorem flushStation_kept (st : StationNo) (o : CutOutcome) (b : Bool) (e : Ev) :
    (flushStation st o b e).p.kept = e.p.kept := by simp [flushStation]

/-! ### Saws -/

@[simp] theorem moveOnDeck_kept (st : StationNo) (p : Part) : (moveOnDeck st p).kept = p.kept := by
  unfold moveOnDeck; split
  · rfl
  · split <;> rfl

@[simp] theorem stageProgram_kept (st : StationNo) (d : OnDeck) (t : Ticket) (e : Ev) :
    (stageProgram st d t e).p.kept = e.p.kept := by simp [stageProgram]

@[simp] theorem stageOnDeck_kept (st : StationNo) (e : Ev) : (stageOnDeck st e).p.kept = e.p.kept := by
  unfold stageOnDeck; split
  · rfl
  · split
    · rfl
    · split <;> simp

@[simp] theorem bindFollower_kept (st : StationNo) (m : OrderRec) (n : SlabNo) (p : Part) :
    (bindFollower st m n p).kept = p.kept := by
  unfold bindFollower; split <;> rfl

@[simp] theorem completeStock_kept (st : StationNo) (o : OrderRec) (t : Ticket) (n : SlabNo) (source : Slab)
    (bases : List Nat) (p : Part) : (completeStock st o t n source bases p).1.kept = p.kept := by
  unfold completeStock; simp only
  split
  · exact (bindFollower_kept _ _ _ _).trans rfl
  · rfl

@[simp] theorem completeOrder_kept (st : StationNo) (o : OrderRec) (t : Ticket) (n : SlabNo) (source : Slab)
    (run water : Nat) (moved : Part → Part) (e : Ev) (h : ∀ p, (moved p).kept = p.kept) :
    (completeOrder st o t n source run water moved e).p.kept = e.p.kept := by
  unfold completeOrder; simp only
  exact (offer_kept _ _ rfl).trans (by simp [h])

@[simp] theorem leaveActive_kept (st : StationNo) (next : StationState) (p : Part) :
    (leaveActive st next p).kept = p.kept := by simp [leaveActive]

@[simp] theorem completeActive_kept (st : StationNo) (a : Active) (run : Nat) (e : Ev) :
    (completeActive st a run e).p.kept = e.p.kept := by
  unfold completeActive; simp only; split
  · simp only [Ev.later_p, Ev.map_p, leaveActive_kept]
    exact completeOrder_kept _ _ _ _ _ _ _ _ _ fun p => setTarget_kept _ _ p
  · simp

@[simp] theorem enterPromoted_kept (st : StationNo) (p : Part) : (enterPromoted st p).kept = p.kept := by
  unfold enterPromoted; split <;> rfl

@[simp] theorem activate_kept (st : StationNo) (d : OnDeck) (t : Ticket) (n : Byte) (p : Part) :
    (activate st d t n p).kept = p.kept := by
  unfold activate; simp only; split <;> rfl

@[simp] theorem promoteOrder_kept (st : StationNo) (d : OnDeck) (t : Ticket) (e : Ev) :
    (promoteOrder st d t e).p.kept = e.p.kept := by
  unfold promoteOrder; simp only; split <;> simp

@[simp] theorem promoteWhole_kept (st : StationNo) (d : OnDeck) (e : Ev) : (promoteWhole st d e).p.kept = e.p.kept := by
  unfold promoteWhole; simp only; split <;> simp

@[simp] theorem examineStation_kept (st : StationNo) (e : Ev) : (examineStation st e).p.kept = e.p.kept := by
  unfold examineStation; simp only; split
  · simp
  · split
    · simp
    · split
      · split <;> simp
      · simp

@[simp] theorem closeFollower_kept (st : StationNo) (m : OrderRec) (e : Ev) :
    (closeFollower st m e).p.kept = e.p.kept := by
  unfold closeFollower; simp only; split
  · exact (offer_kept _ _ rfl).trans (by simp)
  · simp

@[simp] theorem cascade_kept (st : StationNo) (o : OrderRec) (n : Nat) (e : Ev) :
    (cascade st o n e).p.kept = e.p.kept := by
  induction n generalizing o e with
  | zero => rfl
  | succ n ih => simp only [cascade]; split <;> simp [ih]

@[simp] theorem failActive_kept (st : StationNo) (a : Active) (outcome : CutOutcome) (run : Nat)
    (next : StationState) (b : Bool) (e : Ev) : (failActive st a outcome run next b e).p.kept = e.p.kept := by
  unfold failActive; simp only
  have h : ∀ e : Ev, (offer (.recordHold st false (recordFrame (failedRecord st a.order outcome run a.waterUsed))) e).p.kept
    = e.p.kept := fun e => offer_kept _ _ rfl
  split <;> split <;> simp [h]

@[simp] theorem passReported_kept (st : StationNo) (t n : Byte) (p : Part) : (passReported st t n p).kept = p.kept := by
  unfold passReported; split <;> rfl

@[simp] theorem doneReported_kept (st : StationNo) (t o : Byte) (run : Nat) (e : Ev) :
    (doneReported st t o run e).p.kept = e.p.kept := by
  unfold doneReported; simp only; split
  · simp
  · split
    · simp
    · split
      · simp
      · simp
      · split <;> simp

@[simp] theorem stopExpired_kept (st : StationNo) (e : Ev) : (stopExpired st e).p.kept = e.p.kept := by
  unfold stopExpired; split <;> simp

@[simp] theorem takeUsage_kept (st : StationNo) (w en r : Nat) (e : Ev) : (takeUsage st w en r e).p.kept = e.p.kept := by
  simp only [takeUsage, postSample_kept, Ev.map_p]
  exact debit_kept st w e.p

@[simp] theorem resetStation_kept (st : StationNo) (e : Ev) : (resetStation st e).p.kept = e.p.kept := by
  unfold resetStation; simp only; split
  · simp
  · split <;> simp

/-! ### The line reset and the examinations -/

@[simp] theorem resetBegins_kept (p : Part) : (resetBegins p).kept = p.kept := by
  have h : ∀ p : Part, (allStations.foldl (fun (q : Part) st =>
      q.upStc st (resetContext q.cpl[st].active.isSome)) p).kept = p.kept := fun p => foldl_part_kept _ _ _ fun _ _ => rfl
  have h1 : ∀ p : Part, (p.upWbu fun u => { u with waitList := Vector.replicate 8 none }).kept = p.kept := fun _ => rfl
  unfold resetBegins; simp only [flushAll_kept]
  split
  · exact (thaw_kept _).trans ((h1 _).trans ((h _).trans rfl))
  · exact (h1 _).trans ((h _).trans rfl)

@[simp] theorem setPhase_kept (ph : Phase) (p : Part) : (setPhase ph p).kept = p.kept := rfl

@[simp] theorem beginLineReset_kept (e : Ev) : (beginLineReset e).p.kept = e.p.kept := by
  have h : ∀ e : Ev, (allStations.foldl (fun x st => resetStation st x) e).p.kept = e.p.kept := fun e =>
    foldl_kept _ _ _ (by simp)
  simp [beginLineReset, h]

@[simp] theorem runTask_kept (t : Task) (e : Ev) : (runTask t e).p.kept = e.p.kept := by
  cases t <;> simp [runTask]

@[simp] theorem settle_kept (n : Nat) (e : Ev) : (settle n e).p.kept = e.p.kept := by
  induction n generalizing e with
  | zero => rfl
  | succ n ih => simp only [settle]; split <;> simp [ih]

theorem sendReply_kept (code tag : Byte) (x : Reply) : (sendReply code tag x).p.kept = x.e.p.kept :=
  offer_kept _ _ rfl

@[simp] theorem answerLineReset_kept (r : InProgress) (e : Ev) : (answerLineReset r e).p.kept = e.p.kept :=
  (sendReply_kept _ _ _).trans rfl

@[simp] theorem freezeCheck_kept (e : Ev) : (freezeCheck e).p.kept = e.p.kept := by
  unfold freezeCheck; split
  · rfl
  · split
    · exact (sendReply_kept _ _ _).trans rfl
    · rfl

@[simp] theorem lineResetCheck_kept (e : Ev) : (lineResetCheck e).p.kept = e.p.kept := by
  unfold lineResetCheck; simp only; split
  · rfl
  · split
    · split
      · split <;> simp
      · rfl
    · split <;> simp
    · rfl
    · rfl

end Sys2Proof.Machine
end

