-- ==== Sys2Proof/Laws/PerInstr.lean ====
section
/-! SUPPORT. For every command that is a frame of the line: its payload fits a frame and has the length of its kind (R1,
R196). One lemma per command; a command that is no frame says nothing. -/

namespace Sys2Proof.Laws

/-- R1, R3, R196: the payload of the frame a well-formed command stands for is at most 64 bytes long, and has the length
of its kind when the kind has one. -/
def Shape.Statement (i : Instr) : Prop :=
  ∀ w : Wire, wireOf i = some w → WellFormed i = true →
    w.payload.length ≤ 64 ∧ ∀ n, payloadLength w.kind = some n → w.payload.length = n

/-- A command that is no frame. -/
theorem Shape.of_none (i : Instr) (h : wireOf i = none) : Shape.Statement i := by
  intro w hw
  rw [h] at hw
  cases hw

/-- A command that is one frame. -/
theorem Shape.of_some (i : Instr) (v : Wire) (h : wireOf i = some v)
    (hv : WellFormed i = true → v.payload.length ≤ 64 ∧ ∀ n, payloadLength v.kind = some n → v.payload.length = n) :
    Shape.Statement i := by
  intro w hw wf
  rw [h] at hw
  cases hw
  exact hv wf

/-- A management request carries at most 64 bytes (R203), and its kind has no length of its own. -/
theorem Shape.of_request (i : Instr) (payload : List Byte) (h : wireOf i = some (manageWire payload))
    (hp : WellFormed i = true → payload.length ≤ 64) : Shape.Statement i :=
  of_some i _ h fun wf => ⟨hp wf, fun _ hn => by cases hn⟩

theorem Shape.powerUp (locken yardkey : Level) : Shape.Statement (.powerUp locken yardkey) :=
  of_none _ rfl

theorem Shape.resetnAssert : Shape.Statement .resetnAssert :=
  of_none _ rfl

theorem Shape.resetnRelease : Shape.Statement .resetnRelease :=
  of_none _ rfl

theorem Shape.receivePairIdle (port : Port) : Shape.Statement (.receivePairIdle port) :=
  of_none _ rfl

theorem Shape.badStartByte (port : Port) (byte : Byte) : Shape.Statement (.badStartByte port byte) :=
  of_none _ rfl

theorem Shape.payloadLengthAbove64 (port : Port) (length : Byte) :
    Shape.Statement (.payloadLengthAbove64 port length) :=
  of_none _ rfl

theorem Shape.truncatedFrame (port : Port) : Shape.Statement (.truncatedFrame port) :=
  of_none _ rfl

theorem Shape.frameReceived (port : Port) (dst src kind : Byte) (payload : List Byte) (crc : Half) (handed : Bool) :
    Shape.Statement (.frameReceived port dst src kind payload crc handed) :=
  of_none _ rfl

theorem Shape.foreignManage (port : Port) (dst src : Byte) (payload : List Byte) :
    Shape.Statement (.foreignManage port dst src payload) :=
  of_some _ _ rfl fun wf => ⟨by simp [WellFormed, payloadOk] at wf; exact wf.1.2, fun _ hn => by cases hn⟩

theorem Shape.manageRequestReceived (payload : List Byte) : Shape.Statement (.manageRequestReceived payload) :=
  of_request _ payload rfl fun wf => by simpa [WellFormed, payloadOk] using wf

theorem Shape.malformedRequest (payload : List Byte) : Shape.Statement (.malformedRequest payload) := by
  by_cases h : (decodeRequest payload).body = .malformed
  · exact of_request _ payload (by simp [wireOf, h]) fun wf => by simpa [WellFormed, payloadOk] using wf
  · exact of_none _ (by simp [wireOf, h])

theorem Shape.identify (tag : Byte) : Shape.Statement (.identify tag) :=
  of_request _ _ rfl fun _ => Nat.le_of_ble_eq_true rfl

theorem Shape.lineReset (tag : Byte) : Shape.Statement (.lineReset tag) :=
  of_request _ _ rfl fun _ => Nat.le_of_ble_eq_true rfl

theorem Shape.lineResetComplete : Shape.Statement .lineResetComplete :=
  of_none _ rfl

theorem Shape.mapRead (tag station : Byte) : Shape.Statement (.mapRead tag station) :=
  of_request _ _ rfl fun _ => Nat.le_of_ble_eq_true rfl

theorem Shape.mapWrite (tag station node cls enabled : Byte) :
    Shape.Statement (.mapWrite tag station node cls enabled) :=
  of_request _ _ rfl fun _ => Nat.le_of_ble_eq_true rfl

theorem Shape.releaseStation (tag station : Byte) : Shape.Statement (.releaseStation tag station) :=
  of_request _ _ rfl fun _ => Nat.le_of_ble_eq_true rfl

theorem Shape.serviceStation (tag station : Byte) : Shape.Statement (.serviceStation tag station) :=
  of_request _ _ rfl fun _ => Nat.le_of_ble_eq_true rfl

theorem Shape.classRead (tag cls : Byte) : Shape.Statement (.classRead tag cls) :=
  of_request _ _ rfl fun _ => Nat.le_of_ble_eq_true rfl

theorem Shape.classWrite (tag cls : Byte) (entry : ClassFields) : Shape.Statement (.classWrite tag cls entry) :=
  of_request _ _ rfl fun _ => Nat.le_of_ble_eq_true rfl

theorem Shape.pipeRead (tag : Byte) : Shape.Statement (.pipeRead tag) :=
  of_request _ _ rfl fun _ => Nat.le_of_ble_eq_true rfl

theorem Shape.pipeWrite (tag : Byte) (percent grace : Half) (stopTimeout : Byte) :
    Shape.Statement (.pipeWrite tag percent grace stopTimeout) :=
  of_request _ _ rfl fun _ => Nat.le_of_ble_eq_true rfl

theorem Shape.slabWrite (tag : Byte) (fields : SlabFields) : Shape.Statement (.slabWrite tag fields) :=
  of_request _ _ rfl fun _ => Nat.le_of_ble_eq_true rfl

theorem Shape.slabRemove (tag : Byte) (number : Half) : Shape.Statement (.slabRemove tag number) :=
  of_request _ _ rfl fun _ => Nat.le_of_ble_eq_true rfl

theorem Shape.slabRead (tag : Byte) (number : Half) : Shape.Statement (.slabRead tag number) :=
  of_request _ _ rfl fun _ => Nat.le_of_ble_eq_true rfl

theorem Shape.slabScan (tag : Byte) (start : Half) : Shape.Statement (.slabScan tag start) :=
  of_request _ _ rfl fun _ => Nat.le_of_ble_eq_true rfl

theorem Shape.stockCount (tag : Byte) : Shape.Statement (.stockCount tag) :=
  of_request _ _ rfl fun _ => Nat.le_of_ble_eq_true rfl

theorem Shape.lockRange (tag : Byte) (low high : Half) (invert : Byte) :
    Shape.Statement (.lockRange tag low high invert) :=
  of_request _ _ rfl fun _ => Nat.le_of_ble_eq_true rfl

theorem Shape.lockAll (tag : Byte) : Shape.Statement (.lockAll tag) :=
  of_request _ _ rfl fun _ => Nat.le_of_ble_eq_true rfl

theorem Shape.lockHard (tag : Byte) : Shape.Statement (.lockHard tag) :=
  of_request _ _ rfl fun _ => Nat.le_of_ble_eq_true rfl

theorem Shape.lockQuery (tag : Byte) : Shape.Statement (.lockQuery tag) :=
  of_request _ _ rfl fun _ => Nat.le_of_ble_eq_true rfl

theorem Shape.waterWrite (tag : Byte) (fields : WaterFields) : Shape.Statement (.waterWrite tag fields) :=
  of_request _ _ rfl fun _ => Nat.le_of_ble_eq_true rfl

theorem Shape.waterRead (tag : Byte) : Shape.Statement (.waterRead tag) :=
  of_request _ _ rfl fun _ => Nat.le_of_ble_eq_true rfl

theorem Shape.waterState (tag : Byte) : Shape.Statement (.waterState tag) :=
  of_request _ _ rfl fun _ => Nat.le_of_ble_eq_true rfl

theorem Shape.newDay (tag : Byte) : Shape.Statement (.newDay tag) :=
  of_request _ _ rfl fun _ => Nat.le_of_ble_eq_true rfl

theorem Shape.postingWrite (tag period : Byte) (limit : Half) : Shape.Statement (.postingWrite tag period limit) :=
  of_request _ _ rfl fun _ => Nat.le_of_ble_eq_true rfl

theorem Shape.postingRead (tag : Byte) : Shape.Statement (.postingRead tag) :=
  of_request _ _ rfl fun _ => Nat.le_of_ble_eq_true rfl

theorem Shape.auditFreeze (tag : Byte) : Shape.Statement (.auditFreeze tag) :=
  of_request _ _ rfl fun _ => Nat.le_of_ble_eq_true rfl

theorem Shape.freezeTakesEffect : Shape.Statement .freezeTakesEffect :=
  of_none _ rfl

theorem Shape.auditThaw (tag : Byte) : Shape.Statement (.auditThaw tag) :=
  of_request _ _ rfl fun _ => Nat.le_of_ble_eq_true rfl

theorem Shape.jobOpen (tag job : Byte) (reference : Word) : Shape.Statement (.jobOpen tag job reference) :=
  of_request _ _ rfl fun _ => Nat.le_of_ble_eq_true rfl

theorem Shape.jobClose (tag job : Byte) : Shape.Statement (.jobClose tag job) :=
  of_request _ _ rfl fun _ => Nat.le_of_ble_eq_true rfl

theorem Shape.jobDiscard (tag job : Byte) : Shape.Statement (.jobDiscard tag job) :=
  of_request _ _ rfl fun _ => Nat.le_of_ble_eq_true rfl

theorem Shape.jobRead (tag job : Byte) : Shape.Statement (.jobRead tag job) :=
  of_request _ _ rfl fun _ => Nat.le_of_ble_eq_true rfl

theorem Shape.ratesWrite (tag : Byte) (water run : Word) (energy : Half) :
    Shape.Statement (.ratesWrite tag water run energy) :=
  of_request _ _ rfl fun _ => Nat.le_of_ble_eq_true rfl

theorem Shape.ratesRead (tag : Byte) : Shape.Statement (.ratesRead tag) :=
  of_request _ _ rfl fun _ => Nat.le_of_ble_eq_true rfl

theorem Shape.noticeRead (tag : Byte) : Shape.Statement (.noticeRead tag) :=
  of_request _ _ rfl fun _ => Nat.le_of_ble_eq_true rfl

theorem Shape.ackAttention (tag : Byte) : Shape.Statement (.ackAttention tag) :=
  of_request _ _ rfl fun _ => Nat.le_of_ble_eq_true rfl

theorem Shape.summaryWrite (tag period : Byte) : Shape.Statement (.summaryWrite tag period) :=
  of_request _ _ rfl fun _ => Nat.le_of_ble_eq_true rfl

theorem Shape.summaryRead (tag : Byte) : Shape.Statement (.summaryRead tag) :=
  of_request _ _ rfl fun _ => Nat.le_of_ble_eq_true rfl

theorem Shape.cutOrder (dst src : Byte) (order : OrderFields) : Shape.Statement (.cutOrder dst src order) :=
  of_some _ _ rfl fun _ => ⟨Nat.le_of_ble_eq_true rfl, fun _ hn => Option.some.inj hn⟩

theorem Shape.hold (dst src : Byte) : Shape.Statement (.hold dst src) :=
  of_some _ _ rfl fun _ => ⟨Nat.le_of_ble_eq_true rfl, fun _ hn => Option.some.inj hn⟩

theorem Shape.resume (dst src : Byte) : Shape.Statement (.resume dst src) :=
  of_some _ _ rfl fun _ => ⟨Nat.le_of_ble_eq_true rfl, fun _ hn => Option.some.inj hn⟩

theorem Shape.abort (dst src : Byte) : Shape.Statement (.abort dst src) :=
  of_some _ _ rfl fun _ => ⟨Nat.le_of_ble_eq_true rfl, fun _ hn => Option.some.inj hn⟩

theorem Shape.flush (dst src : Byte) : Shape.Statement (.flush dst src) :=
  of_some _ _ rfl fun _ => ⟨Nat.le_of_ble_eq_true rfl, fun _ hn => Option.some.inj hn⟩

theorem Shape.unknownStationCommand (dst src code : Byte) : Shape.Statement (.unknownStationCommand dst src code) :=
  of_some _ _ rfl fun _ => ⟨Nat.le_of_ble_eq_true rfl, fun _ hn => Option.some.inj hn⟩

theorem Shape.panelClaim (dst src : Byte) : Shape.Statement (.panelClaim dst src) :=
  of_some _ _ rfl fun _ => ⟨Nat.le_of_ble_eq_true rfl, fun _ hn => Option.some.inj hn⟩

theorem Shape.panelRelease (dst src : Byte) : Shape.Statement (.panelRelease dst src) :=
  of_some _ _ rfl fun _ => ⟨Nat.le_of_ble_eq_true rfl, fun _ hn => Option.some.inj hn⟩

theorem Shape.panelStop (dst src : Byte) : Shape.Statement (.panelStop dst src) :=
  of_some _ _ rfl fun _ => ⟨Nat.le_of_ble_eq_true rfl, fun _ hn => Option.some.inj hn⟩

theorem Shape.panelResume (dst src : Byte) : Shape.Statement (.panelResume dst src) :=
  of_some _ _ rfl fun _ => ⟨Nat.le_of_ble_eq_true rfl, fun _ hn => Option.some.inj hn⟩

theorem Shape.cutPass (dst src ticket pass : Byte) : Shape.Statement (.cutPass dst src ticket pass) :=
  of_some _ _ rfl fun _ => ⟨Nat.le_of_ble_eq_true rfl, fun _ hn => Option.some.inj hn⟩

theorem Shape.cutDone (dst src ticket outcome : Byte) (run : Word) :
    Shape.Statement (.cutDone dst src ticket outcome run) :=
  of_some _ _ rfl fun _ => ⟨Nat.le_of_ble_eq_true rfl, fun _ hn => Option.some.inj hn⟩

theorem Shape.usage (dst src : Byte) (water energy run : Half) : Shape.Statement (.usage dst src water energy run) :=
  of_some _ _ rfl fun _ => ⟨Nat.le_of_ble_eq_true rfl, fun _ hn => Option.some.inj hn⟩

theorem Shape.drainApplication (station : StationNo) : Shape.Statement (.drainApplication station) :=
  of_none _ rfl

theorem Shape.waterSample (dst src : Byte) (level : Word) (turbidity : Half) (makeup : Word) :
    Shape.Statement (.waterSample dst src level turbidity makeup) :=
  of_some _ _ rfl fun _ => ⟨Nat.le_of_ble_eq_true rfl, fun _ hn => Option.some.inj hn⟩

theorem Shape.overrunExpiry (station : StationNo) : Shape.Statement (.overrunExpiry station) :=
  of_none _ rfl

theorem Shape.stopTimeout (station : StationNo) : Shape.Statement (.stopTimeout station) :=
  of_none _ rfl

theorem Shape.sampleTimeout : Shape.Statement .sampleTimeout :=
  of_none _ rfl

theorem Shape.coalescingTimerExpiry (station : StationNo) : Shape.Statement (.coalescingTimerExpiry station) :=
  of_none _ rfl

theorem Shape.freezeExpiry : Shape.Statement .freezeExpiry :=
  of_none _ rfl

theorem Shape.summaryTimerExpiry : Shape.Statement .summaryTimerExpiry :=
  of_none _ rfl

theorem Shape.yardkeyChange (level : Level) : Shape.Statement (.yardkeyChange level) :=
  of_none _ rfl

theorem Shape.yardkeySettleExpiry : Shape.Statement .yardkeySettleExpiry :=
  of_none _ rfl

theorem Shape.frameSent (port : Port) : Shape.Statement (.frameSent port) :=
  of_none _ rfl

theorem Shape.originatedFrameEnters (port : Port) : Shape.Statement (.originatedFrameEnters port) :=
  of_none _ rfl

theorem Shape.programFrameEnters (station : StationNo) : Shape.Statement (.programFrameEnters station) :=
  of_none _ rfl

theorem Shape.sawStopEnters (station : StationNo) : Shape.Statement (.sawStopEnters station) :=
  of_none _ rfl

theorem Shape.makeupOpenEnters : Shape.Statement .makeupOpenEnters :=
  of_none _ rfl

theorem Shape.recordHoldRecordEnters (station : StationNo) : Shape.Statement (.recordHoldRecordEnters station) :=
  of_none _ rfl

theorem Shape.spentSlotRecordEnters (station : StationNo) (slot : SlotNo) :
    Shape.Statement (.spentSlotRecordEnters station slot) :=
  of_none _ rfl

theorem Shape.onDeckPlaceRecordEnters (station : StationNo) : Shape.Statement (.onDeckPlaceRecordEnters station) :=
  of_none _ rfl

theorem Shape.manageAnswerEnters : Shape.Statement .manageAnswerEnters :=
  of_none _ rfl

theorem Shape.jobReadSegmentEnters : Shape.Statement .jobReadSegmentEnters :=
  of_none _ rfl

theorem Shape.attentionEnters : Shape.Statement .attentionEnters :=
  of_none _ rfl

theorem Shape.startDelimiterReceived (port : Port) : Shape.Statement (.startDelimiterReceived port) :=
  of_none _ rfl

theorem Shape.transmissionStart (port : Port) : Shape.Statement (.transmissionStart port) :=
  of_none _ rfl

end Sys2Proof.Laws
end

