-- ==== Sys2Proof/Tests/Slice0.lean ====
section
/-! SUPPORT. Tests: the smoke test of WellFormed, the worked examples of spec/, one-step tests of the commands, and for
every obligation with hypotheses a witness that states and operands meet them. A hypothesis that only names a value
(`x = ...`, or `∀ y, f y = ...`) is met by that value and is left out of the witness. -/

namespace Sys2Proof.Tests

-- One theorem at a time: side by side, a hundred kernel evaluations need a hundred stacks.
set_option Elab.async false

open Sys2Proof Sys2Proof.Machine

/-! ### Small states -/

/-- A part as it is after power-up but for a change. -/
def part (f : Part → Part) : Part := f State.reset.part

def state (p : Part) : State := ⟨[], p⟩

/-- Slab 5: 1000 × 500 × 20 mm, generation 0, 9000 cents. -/
def slab5 : Slab := ⟨.stock, 0, 20, 1000, 500, 0, none, 9000, 0⟩

def tank : Wbu :=
  ⟨⟨1500000, 200000, 50000, 600000, 1200000, 40, 5, 800000, 40⟩, 500000, 18, .clear, .live, .running 5000, .makeup, .closed,
    300000, 0, Vector.replicate 8 none, 7⟩

/-- A shop: station 0 is mapped to node 10 and IDLE, slab 5 is in STOCK and cuttable, job 12 is OPEN, the tank is LIVE, an
ATTENTION is outstanding, and both receivers are in the middle of a frame. -/
def shop : Part :=
  part fun p =>
    { p with
      portU := { p.portU with receiver := .receiving }
      portD := { p.portD with receiver := .receiving }
      map := p.map.set 0 ⟨10, 1, true⟩
      stc := p.stc.set 0 ⟨.idle, .cell, .empty, none⟩
      lck := { p.lck with low := 0, high := 511 }
      jau := { p.jau with jobs := p.jau.jobs.set 12 { Job.free with state := .opened } }
      stk := { p.stk with slabs := p.stk.slabs.set 5 (some slab5) }
      wbu := tank
      ntu := { p.ntu with outstanding := true } }

/-- A CUT ORDER for job 12: a piece 600 × 300 from slab 5, chain flag clear. -/
def fields : OrderFields := ⟨12, 5, 600, 300, 0, 0, 0, 9⟩

def order : Order := ⟨12, .slab 5, 600, 300, .production, false, false, 9⟩

def ticket : Ticket := (ticketOf SawClass.initial (.slab 5) slab5.stone 600 300).get (by decide)

def active : Active := ⟨⟨order, 3, .active, 0, 1, some ticket, 100, ticket.planned, none, false⟩, 7, 0, none, 0, 0⟩

/-- The shop with an order cutting at station 0, its record CUTTING. -/
def cutting (state : StationState) (stop : Option StopReason) : Part :=
  { shop with
    stc := shop.stc.set 0 ⟨state, .cell, .empty, none⟩
    stk := { shop.stk with slabs := shop.stk.slabs.set 5 (some { slab5 with state := .cutting ⟨0, 3⟩ }) }
    cpl := shop.cpl.set 0
      { Pipeline.empty with
        active := some { active with stop := stop }
        overrun := if stop = none then .running 90000 else .stopped
        stop := if stop = none then .stopped else .running 10000 } }

/-- The shop with a context of station 0. -/
def held (c : StationCtx) : Part := { shop with stc := shop.stc.set 0 c }

def frame : Frame := ⟨0, 1, 0x81, []⟩

/-- An order of slot 15 in this state, with a ticket. -/
def claimed (state : OrderState) : OrderRec := ⟨order, 15, state, 0, 1, some ticket, 0, ticket.planned, none, false⟩

/-- One order in station 0's ring, alone in its chain. -/
def ringWith (x : OrderRec) (chain : ChainState) (need : Nat) (p : Part) : Part :=
  { p with
    oqu := p.oqu.set 0 ⟨(Vector.replicate 16 none).set 15 (some { x with slot := 15 }), 0, 15, [⟨x.chain, 15, 1, chain, need⟩], 1⟩ }

/-- Slab 5 RESERVED for slot 15 of station 0. -/
def reserved (p : Part) : Part :=
  { p with stk := { p.stk with slabs := p.stk.slabs.set 5 (some { slab5 with state := .reserved ⟨0, 15⟩ }) } }

/-- The order of slot 15 on-deck at station 0, staged or not. -/
def deck (x : OrderRec) (staged : Option Byte) (p : Part) : Part :=
  { p with cpl := p.cpl.set 0 { p.cpl[0] with onDeck := some ⟨x, staged⟩ } }

/-- The follow-on behind the active order of `cutting`. -/
def behind : OrderRec := { claimed .onDeck with order := { order with source := .followOn }, pos := 2 }

/-- A part whose queue of port D is full, a frame on the wire, and one frame waiting. -/
def waitsD (w : Waiter) (p : Part) : Part :=
  { p with portD := { p.portD with queue := List.replicate 16 frame, sending := true, waiting := [⟨w, some 0⟩] } }

def waitsU (w : Waiter) (p : Part) : Part :=
  { p with portU := { p.portU with queue := List.replicate 16 frame, sending := true, waiting := [⟨w, some 0⟩] } }

/-- The part after a command, from a part with no command waiting. -/
def after (c : Instr) (p : Part) : Part :=
  match exec c (state p) with
  | .next t => t.part
  | .fault _ => p
  | .refused _ => p

/-! ### WellFormed refuses -/

theorem test_wf_badStartByte : WellFormed (.badStartByte .U 0xA6) = false := by decide
theorem test_wf_payloadLength : WellFormed (.payloadLengthAbove64 .U 64) = false := by decide
theorem test_wf_frame : WellFormed (.frameReceived .U 10 0 0x20 (List.replicate 65 0) 0 true) = false := by decide
theorem test_wf_foreign_cell : WellFormed (.foreignManage .U 1 0 []) = false := by decide
theorem test_wf_foreign_nodes : WellFormed (.foreignManage .D 64 2 []) = false := by decide
theorem test_wf_foreign_long : WellFormed (.foreignManage .D 1 2 (List.replicate 65 0)) = false := by decide
theorem test_wf_manage : WellFormed (.manageRequestReceived (List.replicate 65 0)) = false := by decide
theorem test_wf_malformed : WellFormed (.malformedRequest (List.replicate 65 0)) = false := by decide
theorem test_wf_cutOrder : WellFormed (.cutOrder 64 0 fields) = false := by decide
theorem test_wf_commands : WellFormed (.hold 10 63) = false ∧ WellFormed (.resume 64 0) = false
    ∧ WellFormed (.abort 10 63) = false ∧ WellFormed (.flush 64 0) = false := by decide
theorem test_wf_unknown : WellFormed (.unknownStationCommand 10 0 4) = false
    ∧ WellFormed (.unknownStationCommand 64 0 5) = false := by decide
theorem test_wf_panel : WellFormed (.panelClaim 0 63) = false ∧ WellFormed (.panelRelease 64 10) = false
    ∧ WellFormed (.panelStop 0 63) = false ∧ WellFormed (.panelResume 64 10) = false := by decide
theorem test_wf_reports : WellFormed (.cutPass 0 63 1 1) = false ∧ WellFormed (.cutDone 64 10 1 0 0) = false
    ∧ WellFormed (.usage 0 63 0 0 0) = false ∧ WellFormed (.waterSample 64 40 0 0 0) = false := by decide

/-! ### The worked examples of spec/ -/

/-- R1: the reference string. -/
theorem test_crc : crc16 [0x31, 0x32, 0x33, 0x34, 0x35, 0x36, 0x37, 0x38, 0x39] = 0x29B1 := by decide +kernel

/-- The class of sections 4.9 to 4.11. -/
def bridge : SawClass := ⟨4, 12, 40, Vector.replicate 8 25, 600, 300⟩

def figures (t : Option Ticket) : Option (Nat × Nat × Nat × Nat × Nat × Nat) :=
  t.map fun x => (x.cutLen, x.passes, x.tEst, x.water, x.planned, x.areaKerf)

/-- Section 4.9. -/
theorem test_ticket_first : figures (ticketOf bridge (.slab 17) ⟨3200, 1600, 30, 0, 0⟩ 2400 635) =
    some (3835, 3, 460200, 18408, 2, 15340) := by decide +kernel

theorem test_split_first : (ticketOf bridge (.slab 17) ⟨3200, 1600, 30, 0, 0⟩ 2400 635).map (splitOf · 180000) =
    some ⟨53578, [108112, 17770], 540⟩ := by decide +kernel

/-- Section 4.10. -/
theorem test_ticket_third : figures (ticketOf bridge .followOn ⟨3200, 322, 30, 0, 2⟩ 1800 318) =
    some (3518, 3, 422160, 16887, 1, 14072) := by decide +kernel

theorem test_split_second : (ticketOf bridge .followOn ⟨3200, 961, 30, 0, 1⟩ 1800 635).map (splitOf · 108112) =
    some ⟨40183, [36224, 31164], 541⟩ := by decide +kernel

/-- Section 4.11: a leftover narrower than the kerf, a remnant turned, one below a minimum, generation 3, uneven
passes. -/
theorem test_ticket_narrow : figures (ticketOf bridge .followOn ⟨2000, 700, 30, 0, 1⟩ 2000 698) =
    some (2000, 3, 240000, 9600, 0, 4000) := by decide +kernel

theorem test_ticket_turned : figures (ticketOf bridge .followOn ⟨796, 635, 30, 0, 1⟩ 400 635) =
    some (635, 3, 76200, 3048, 1, 2540) := by decide +kernel

theorem test_ticket_minimum : (ticketOf bridge .followOn ⟨796, 635, 30, 0, 1⟩ 500 635).map
    (fun t => (t.planned, t.areaScrap)) = some (0, 185420) := by decide +kernel

theorem test_ticket_generation : (ticketOf bridge .followOn ⟨2000, 1000, 30, 0, 3⟩ 800 500).map
    (fun t => (t.planned, t.planA)) = some (0, none) := by decide +kernel

theorem test_ticket_passes : (ticketOf bridge .followOn ⟨2000, 1000, 25, 0, 1⟩ 800 500).map
    (fun t => (t.passes, t.passDepth, t.lastDepth)) = some (3, 9, 7) := by decide +kernel

/-- Section 10.5.1. -/
theorem test_pricing : contextTotal ⟨Vector.replicate 64 .free, 350, 4800, 22⟩ ⟨53578, 540, 18408, 460200, 1840⟩ = 54836 := by
  decide +kernel

/-- Section 7.6: after LOCK RANGE 480, 600, invert 1. -/
theorem test_lock_invert : cuttable ⟨480, 511, true, false, false, .high, .stopped⟩ 479 = true
    ∧ cuttable ⟨480, 511, true, false, false, .high, .stopped⟩ 480 = false := by decide

/-- Section 8.8: the band of a falling tank. -/
theorem test_band : bandAfter tank.consts .makeup 190000 = .low ∧ bandAfter tank.consts .low 230000 = .low
    ∧ bandAfter tank.consts .low 262000 = .makeup := by decide

/-! ### One step of a command -/

theorem test_powerUp : (after (.powerUp .low .high) shop).lck.disabled = true := by decide
theorem test_resetnAssert : (after .resetnAssert (cutting .running none)).stk.slabs[5].map (·.state) = some .doubtful := by
  decide +kernel
theorem test_resetnRelease :
    ((after .resetnRelease { shop with inReset := true }).portD.queue.map fun f => (f.dst, f.kind)) =
      [(10, 0x47), (40, 0x52)] := by decide +kernel
theorem test_receivePairIdle : (after (.receivePairIdle .U) shop).portU.dropped = 1 := by decide +kernel
theorem test_delimiter : (after (.startDelimiterReceived .D) State.reset.part).portD.receiver = .settling := by decide +kernel
theorem test_frameReceived_crc : (after (.frameReceived .U 10 0 0x22 [1] 0 true) shop).portU.dropped = 1 := by decide +kernel
theorem test_foreignManage : ((after (.foreignManage .D 1 0 []) shop).ntu.entries.map (·.kind)) = [.foreignManage] := by
  decide +kernel
theorem test_identify : ((after (.identify 7) shop).portU.queue.map (·.payload)) =
    [[0x01, 7, 0, 0x45, 0xA7, 0x01, 0x9A, 0x01, 0]] := by decide +kernel
theorem test_mapWrite_node1 : ((after (.mapWrite 7 1 1 0 1) shop).portU.queue.map (·.payload)) = [[0x11, 7, 3]] := by
  decide +kernel
theorem test_mapWrite_taken : (after (.mapWrite 7 1 10 0 1) shop).map[1] = ⟨0, 0, false⟩ := by decide +kernel
theorem test_classWrite_clamps : (after (.classWrite 7 3 ⟨11, 4, 0, 1, 1, 1, 1, 1, 1, 1, 201, 2001, 49⟩) shop).classes[3] =
    ⟨10, 5, 1, #v[1, 1, 1, 1, 1, 1, 1, 200], 2000, 50⟩ := by decide +kernel
theorem test_lockRange : (after (.lockRange 7 480 600 1) shop).lck.high = 511 := by decide +kernel
theorem test_lockHard_disabled : (after (.lockHard 7) { shop with lck := { shop.lck with disabled := true } }).lck.hard = false := by
  decide +kernel
theorem test_jobOpen_house : (after (.jobOpen 7 0 5) shop).jau.jobs[0].reference = 0 := by decide +kernel
theorem test_jobClose : (after (.jobClose 7 12) shop).jau.jobs[12].state = .closed := by decide +kernel
theorem test_summaryWrite_zero : (after (.summaryWrite 7 0) shop).ntu.timer = .stopped := by decide +kernel
theorem test_ackAttention : (after (.ackAttention 7) { shop with wbu := { tank with band := .low } }).ntu.entries =
    [⟨.waterLow, none, .none, 1, false⟩] := by decide +kernel
theorem test_newDay : (after (.newDay 7) shop).wbu.valve = .opened := by decide +kernel
theorem test_auditFreeze : (after (.auditFreeze 7) shop).psu.freeze = .frozen := by decide +kernel
theorem test_cutOrder_unmapped : (after (.cutOrder 11 0 fields) shop).portD.queue.length = 1 := by decide +kernel
theorem test_hold : (after (.hold 10 0) (cutting .running none)).cpl[0].overrun = .paused 90000 := by decide +kernel
theorem test_panelClaim_running : ((after (.panelClaim 0 10) (cutting .running none)).portD.queue.map (·.payload)) = [[0]] := by
  decide +kernel
theorem test_cutPass_late : (after (.cutPass 0 10 8 1) (cutting .running none)).cpl[0].active.map (·.pass) = some 0 := by
  decide +kernel
theorem test_cutDone_fault : (after (.cutDone 0 10 7 2 5) (cutting .running none)).stc[0].state = .service := by decide +kernel
theorem test_usage_house : ((after (.usage 0 10 50 0 0) shop).psu.posts[0].buffer.map (·.target)) = [⟨0, .service⟩] := by
  decide +kernel
theorem test_sample_low : (after (.waterSample 0 40 190000 18 0) shop).ntu.entries.map (·.kind) = [.waterLow] := by
  decide +kernel
theorem test_yardkey : (after .yardkeySettleExpiry { shop with
    yardkey := .low, lck := { shop.lck with hard := true, settle := .running 0 } }).lck =
    ⟨1, 0, false, false, false, .low, .stopped⟩ := by decide +kernel
theorem test_yardkey_change : (after (.yardkeyChange .low) shop).lck = shop.lck := by decide +kernel

/-- Log 2: a millisecond samples the pin. -/
theorem test_yardkey_sampled :
    (match step (state { shop with yardkey := .low }) with | .next s => s.part.lck.settle | _ => .stopped) = .running 20 := by
  decide +kernel

theorem test_frameSent : (after (.frameSent .D) (waitsD (.valve true frame) shop)).wbu.valve = .opened := by decide +kernel
theorem test_withFetchWord : State.reset.withFetchWord 16 0 = State.reset := rfl

/-! ### Witnesses of the obligations -/

theorem witness_StepRunsTheFrontCommand :
    ({ State.reset with pending := [.identify 1, .stockCount 2] } : State).pending = .identify 1 :: [.stockCount 2] := rfl

theorem witness_IdleStepCountsOneMillisecond :
    (cutting .running none |> state).pending = [] ∧ Quiet (cutting .running none)
    ∧ (∀ st : StationNo, (cutting .running none).psu.posts[st].covered = 0
        ∧ (cutting .running none).cpl[st].overrun.NotDue ∧ (cutting .running none).cpl[st].stop.NotDue
        ∧ (cutting .running none).psu.posts[st].timer.NotDue)
    ∧ (cutting .running none).wbu.sampleTimer.NotDue ∧ (cutting .running none).psu.freezeTimer.NotDue
    ∧ (cutting .running none).ntu.timer.NotDue := by decide +kernel

theorem witness_RequestsSurviveTheLine : ReqBody.identify ≠ .malformed := by decide

theorem witness_ReceivedFrameHasItsRowsEffect :
    (WellFormed (.hold 10 0) = true ∧ wireOf (.hold 10 0) = some ⟨.U, 10, 0, 0x22, [1]⟩
      ∧ WellFormed (.cutPass 63 10 7 32) = true ∧ wireOf (.cutPass 63 10 7 32) = some ⟨.D, 63, 10, 0x62, [7, 32]⟩)
    ∧ shop.inReset = false
    ∧ ∀ x : Port, (shop.port x).receiver = .receiving ∧ (shop.port x).received = [] := by
  refine ⟨by decide +kernel, by decide +kernel, fun x => ?_⟩
  cases x <;> decide +kernel

theorem witness_ReceiverStatesFollowThePair :
    (part id).inReset = false ∧ ((part id).port .U).receiver = .settling
    ∧ (part fun p => p.upPort .U fun q => { q with receiver := .ready }).inReset = false
    ∧ ((part fun p => p.upPort .U fun q => { q with receiver := .ready }).port .U).receiver = .ready
    ∧ shop.inReset = false ∧ (shop.port .D).receiver = .receiving := by decide +kernel

theorem witness_FaultyFramesAreDroppedAndCounted :
    ((part fun p => p.upPort .U fun q => { q with receiver := .ready }).port .U).receiver = .ready ∧ (0xA7 : Byte) ≠ 0xA6
    ∧ shop.inReset = false ∧ (shop.port .U).receiver = .receiving ∧ 64 < (65 : Byte).toNat
    ∧ 63 < (64 : Byte).toNat ∧ 62 < (63 : Byte).toNat ∧ (0 : Half) ≠ frameCrc 10 0 0x22 [1] := by decide +kernel

/-- A CUT ORDER of 11 bytes and a STATION COMMAND of 2 for station 0, and a CUT DONE of 7 of it. -/
theorem witness_FaultyFramesAreDroppedAndCounted_length :
    shop.inReset = false ∧ (∀ x : Port, (shop.port x).receiver = .receiving) ∧ stationOf shop 10 = some 0
    ∧ (10 : Byte).toNat ≤ 62 ∧ (List.replicate 11 (0 : Byte)).length ≠ 12 ∧ [(1 : Byte), 2].length ≠ 1
    ∧ (List.replicate 7 (0 : Byte)).length ≠ 6 := by
  refine ⟨by decide +kernel, fun x => by cases x <;> decide +kernel, by decide +kernel, by decide +kernel,
    by decide +kernel, by decide +kernel, by decide +kernel⟩

theorem witness_OtherFramesAreForwardedBelowTwelve :
    Quiet shop ∧ (List.replicate 64 (0 : Byte)).length ≤ 64 ∧ (63 : Byte).toNat ≤ 63 ∧ (62 : Byte).toNat ≤ 62
    ∧ shop.portU.receiver = .receiving ∧ shop.portD.receiver = .receiving
    ∧ (0x61 : Byte) ∉ [(0x21 : Byte), 0x22, 0x30] ∧ stationOf shop 63 = none ∧ (2 : Byte) ≠ 1
    ∧ (0x21 : Byte) ∉ [(0x30 : Byte), 0x61, 0x62, 0x63, 0x64, 0x65, 0x66, 0x67, 0x71] ∧ stationOf shop 62 = none
    ∧ stationOf shop 10 = some 0 ∧ [(7 : Byte)].length ≠ 2 ∧ (List.replicate 7 (0 : Byte)).length ≠ 6
    ∧ [(0 : Byte)].length ≠ 0 ∧ (List.replicate 11 (0 : Byte)).length ≠ 10
    ∧ (41 : Byte).toNat ≠ shop.wbu.consts.plantNode := by decide +kernel

/-- Log 4: with a full queue, a frame on the wire and no frame waiting, no waiting frame can enter. -/
theorem test_originatedFrameEnters_none_waits :
    (after (.originatedFrameEnters .U)
      { shop with portU := { shop.portU with queue := List.replicate 16 frame, sending := true } }).portU.queue.length = 16 := by
  decide +kernel

theorem witness_TransmitterSendsTheOldestFrame :
    Quiet (shop.sentU [frame, frame]) ∧ ((shop.sentU [frame, frame]).port .U).queue = frame :: [frame]
    ∧ ((shop.sentU [frame, frame]).port .U).sending = false
    ∧ Quiet { shop with portD := { shop.portD with queue := [frame], sending := true } }
    ∧ (({ shop with portD := { shop.portD with queue := [frame], sending := true } } : Part).port .D).sending = true := by
  decide +kernel

/-- A station's pipeline in which a frame of this kind waits for port D. -/
def listed (kind : SawKind) (number : Option Byte) (p : Part) : Part :=
  { p with cpl := p.cpl.set 0 { p.cpl[0] with frames := [⟨kind, number, frame⟩] } }

/-- Station 0 with a spent slot 15 at the head of its ring. -/
def spent : Part :=
  { shop with
    oqu := shop.oqu.set 0
      ⟨(Vector.replicate 16 none).set 15 (some ⟨order, 15, .closed .cancelled, 0, 1, none, 0, 0, none, false⟩), 0, 15, [], 1⟩ }

/-- The part with a request in progress whose answer waits. -/
def answering (p : Part) : Part := { p with mgu := { p.mgu with inProgress := some ⟨0x43, 7, .answering⟩ } }

theorem witness_WaitingFramesEnterAndTakeEffect_D :
    (∀ w : Waiter, (waitsD w shop).inReset = false ∧ (waitsD w shop).mgu.queue = [] ∧ (waitsD w shop).mgu.inProgress = none
      ∧ (waitsD w shop).portU.waiting = [] ∧ (waitsD w shop).portD.queue.length = 16 ∧ (waitsD w shop).portD.sending = true
      ∧ (waitsD w shop).portD.waiting = [⟨w, some 0⟩])
    ∧ (∀ kind, (listed kind (some 7) (cutting .running none)).cpl[0].frames = [⟨kind, some 7, frame⟩])
    ∧ ({ (cutting .running none) with
          cpl := shop.cpl.set 0 { Pipeline.empty with overrun := .paused 5 } } : Part).cpl[0].overrun = .paused 5
    ∧ (cutting .running none).stc[0].state = .running ∧ (cutting .running none).stc[0].behind = none
    ∧ (cutting .stopping (some .aborted)).cpl[0].active = some { active with stop := some .aborted }
    ∧ ({ active with stop := some .aborted } : Active).stop ≠ none := by
  refine ⟨fun w => ?_, fun kind => ?_, ?_⟩
  · exact ⟨rfl, rfl, rfl, rfl, rfl, rfl, rfl⟩
  · cases kind <;> decide +kernel
  · decide +kernel

theorem witness_WaitingFramesEnterAndTakeEffect_U :
    (∀ w : Waiter, (waitsU w shop).inReset = false ∧ (waitsU w shop).mgu.queue = [] ∧ (waitsU w shop).mgu.inProgress = none
      ∧ (waitsU w shop).portD.waiting = [] ∧ (waitsU w shop).portU.queue.length = 16 ∧ (waitsU w shop).portU.sending = true
      ∧ (waitsU w shop).portU.waiting = [⟨w, some 0⟩])
    ∧ NoneDue (waitsU (.recordHold 0 false frame) shop) 0
    ∧ NoneDue (waitsU (.onDeckPlace 0 .cancelled frame) shop) 0
    ∧ (spent.oqu[0].producer = spent.oqu[0].consumer + 1
      ∧ spent.oqu[0].slots[spent.oqu[0].consumer].map (·.state) = some (.closed .cancelled) ∧ spent.cpl[0].onDeck = none)
    ∧ (answering (waitsU (.manageAnswer none frame) shop)).mgu.inProgress = some ⟨0x43, 7, .answering⟩
    ∧ (answering (waitsU (.manageAnswer (some frame) frame) shop)).portU.waiting =
        [⟨.manageAnswer (some frame) frame, some 0⟩] := by
  refine ⟨fun w => ⟨rfl, rfl, rfl, rfl, rfl, rfl, rfl⟩, ?_⟩
  decide +kernel

/-- The part with a request in progress in this phase and `n` queued. -/
def busyWith (n : Nat) (phase : Phase) (p : Part) : Part :=
  { p with mgu := ⟨List.replicate n ⟨1, 1, .identify⟩, some ⟨1, 1, phase⟩, .powerUp⟩ }

/-- The shop with a drain in flight at station 0. -/
def draining : Part := { shop with psu := { shop.psu with posts := shop.psu.posts.set 0 ⟨.house, [], 1, .stopped⟩ } }

theorem witness_RequestsQueueOrAreAnsweredAtOnce :
    (∀ phase, (busyWith 3 phase shop).inReset = false ∧ (busyWith 3 phase shop).portU.received = []
      ∧ (busyWith 3 phase shop).mgu.inProgress = some ⟨1, 1, phase⟩ ∧ Grouped (busyWith 3 phase shop)
      ∧ (busyWith 3 phase shop).mgu.queue.length < 4 ∧ (busyWith 4 phase shop).mgu.queue.length = 4
      ∧ (busyWith 4 phase shop).portU.anyWaits Waiter.isBusy = false ∧ RoomU 1 (busyWith 4 phase shop))
    ∧ (StaysInProgress (busyWith 4 .answering shop) .answering
      ∧ StaysInProgress (busyWith 4 .freezing draining) .freezing
      ∧ StaysInProgress (busyWith 4 (.resetting [0]) shop) (.resetting [0])
      ∧ StaysInProgress (busyWith 4 (.resetting []) shop) (.resetting [])
      ∧ StaysInProgress (busyWith 4 .attending (waitsU (.attention frame) shop)) .attending)
    ∧ (16 ≤ (waitsU (.attention frame) shop).portU.queue.length
      ∧ (waitsU (.attention frame) shop).portU.anyWaits Waiter.isBusy = false ∧ Grouped (waitsU (.attention frame) shop))
    ∧ (Grouped (busyWith 4 .answering (waitsU (.busy frame) shop))
      ∧ (busyWith 4 .answering (waitsU (.busy frame) shop)).portU.anyWaits Waiter.isBusy = true)
    ∧ Quiet shop ∧ RoomU 1 shop ∧ decodeBody (0x28 : Byte).toNat [0, 0, 0, 0] = none := by
  refine ⟨fun phase => ?_, ⟨trivial, ⟨0, by decide +kernel⟩, .inl (by decide), .inr (.inl ⟨0, by decide +kernel⟩),
    rfl⟩, ?_⟩
  · exact ⟨rfl, rfl, rfl, ⟨fun _ h => absurd h List.not_mem_nil, fun _ h => absurd h List.not_mem_nil⟩,
      show 3 < 4 by decide, rfl, rfl, show 0 + 1 ≤ 16 by decide⟩
  · decide +kernel

theorem witness_ForeignManageRaisesItsNotice :
    WellFormed (.foreignManage .U 1 2 []) = true ∧ WellFormed (.foreignManage .D 0 0 []) = true ∧ Quiet (part id)
    ∧ RoomU 1 (part id) ∧ (part id).ntu.entries = [] ∧ (part id).ntu.outstanding = false := by decide +kernel

theorem witness_ReadsAnswerFromTheTables :
    Quiet shop ∧ RoomU 1 shop ∧ (7 : StationNo).val = (7 : Byte).toNat ∧ 8 ≤ (8 : Byte).toNat := by decide +kernel

theorem witness_ClassWaterAndLockReadsAnswerTheirTables :
    Quiet shop ∧ RoomU 1 shop ∧ (3 : ClassNo).val = (3 : Byte).toNat ∧ 4 ≤ (4 : Byte).toNat
    ∧ LockLegal (Part.powerUp .low .high).lck ∧ (Part.powerUp .low .high).lck.disabled = true := by
  refine ⟨by decide +kernel, by decide +kernel, by decide, by decide, ?_, by decide⟩
  exact ⟨by decide, by decide, fun _ => ⟨rfl, rfl, rfl, rfl⟩⟩

theorem witness_SlabReadsAnswerTheRecord :
    Quiet shop ∧ RoomU 1 shop ∧ 512 ≤ (512 : Half).toNat ∧ (511 : SlabNo).val = (511 : Half).toNat
    ∧ shop.stk.slabs[511] = none ∧ (5 : SlabNo).val = (5 : Half).toNat ∧ shop.stk.slabs[5] = some slab5
    ∧ (∀ m : SlabNo, (511 : Half).toNat ≤ m.val → shop.stk.slabs[m] = none)
    ∧ (∀ m : SlabNo, (0 : Half).toNat ≤ m.val → m.val < 5 → shop.stk.slabs[m] = none) := by decide +kernel

theorem witness_MapWriteReplacesTheEntry :
    Quiet shop ∧ RoomU 1 shop ∧ 8 ≤ (8 : Byte).toNat ∧ (1 : Byte).toNat = 1 ∧ 62 < (63 : Byte).toNat ∧ 4 ≤ (4 : Byte).toNat
    ∧ 2 ≤ (2 : Byte).toNat ∧ (1 : Byte).toNat = (if true = true then 1 else 0) ∧ shop.stc[0].state = .idle
    ∧ shop.stc[7].state = .service ∧ shop.oqu[7].producer = shop.oqu[7].consumer ∧ shop.cpl[7].onDeck = none
    ∧ shop.cpl[7].active = none ∧ (0 : StationNo) ≠ 7 ∧ shop.map[0].node = (10 : Byte).toNat ∧ shop.map[0].node ≠ 0
    ∧ shop.map[0].enabled = true
    ∧ ¬∃ x : StationNo, x ≠ 7 ∧ shop.map[x].node = (62 : Byte).toNat ∧ shop.map[x].node ≠ 0 ∧ shop.map[x].enabled = true := by
  decide +kernel

theorem witness_ReleaseAndServiceMoveAStation :
    Quiet shop ∧ RoomU 1 shop ∧ shop.map[7].node = 0 ∧ (shop.map[0].node ≠ 0 ∧ shop.map[0].enabled = true)
    ∧ shop.stc[0].state ≠ .service ∧ (held .initial).stc[0].state = .service ∧ NoneDue (held .initial) 0
    ∧ Quiet (cutting .running none) ∧ (cutting .running none).cpl[0].active ≠ none ∧ shop.cpl[0].active = none := by
  decide +kernel

theorem witness_TableWritesClampAndReplace :
    Quiet shop ∧ RoomU 1 shop ∧ (3 : ClassNo).val = (3 : Byte).toNat ∧ 4 ≤ (4 : Byte).toNat := by decide +kernel

/-- A stock lock that locks every number. -/
def locked (p : Part) : Part := { p with lck := { p.lck with low := 1, high := 0 } }

/-- The shop with so many record places reserved that none is free. -/
def fullStock : Part := { shop with stk := { shop.stk with reservations := 511 } }

theorem witness_SlabWriteAndRemoveChangeOneRecord :
    Quiet shop ∧ RoomU 1 shop ∧ 512 ≤ (512 : Half).toNat ∧ 2 ≤ (2 : Byte).toNat ∧ 8 ≤ (8 : Byte).toNat
    ∧ (65534 : Half).toNat ≠ 65535 ∧ 512 ≤ (65534 : Half).toNat ∧ (5 : SlabNo).val = (5 : Half).toNat
    ∧ (65535 : Half).toNat = (match (none : Option SlabNo) with | some q => q.val | none => 65535)
    ∧ (cutting .running none).stk.slabs[5].map (·.state) = some (.cutting ⟨0, 3⟩)
    ∧ shop.stk.slabs[5] = some slab5 ∧ slab5.state = .stock ∧ cuttable shop.lck 5 = true
    ∧ Quiet (locked shop) ∧ cuttable (locked shop).lck 5 = false
    ∧ Quiet fullStock ∧ fullStock.stk.slabs[6] = none ∧ 512 ≤ usedCount fullStock.stk + fullStock.stk.reservations
    ∧ shop.stk.slabs[6] = none ∧ usedCount shop.stk + shop.stk.reservations < 512
    ∧ ((0 : Byte).toNat = 0 ∧ (some 3 : Option SlabNo) ≠ none)
    ∧ ¬(((1 : Byte).toNat = 0 ∧ (some 3 : Option SlabNo) ≠ none) ∨ (some 3 : Option SlabNo) = some 6) := by decide +kernel

/-- The shop with its lock hard, or disabled. -/
def hardLock : Part := { shop with lck := { shop.lck with hard := true } }

def noLock : Part := { shop with lck := { shop.lck with disabled := true } }

theorem witness_LockRequestsReplaceTheRange :
    Quiet shop ∧ RoomU 1 shop ∧ 2 ≤ (2 : Byte).toNat ∧ (1 : Byte).toNat = (if true = true then 1 else 0)
    ∧ Quiet noLock ∧ noLock.lck.disabled = true ∧ Quiet hardLock ∧ hardLock.lck.disabled = false ∧ hardLock.lck.hard = true
    ∧ shop.lck.disabled = false ∧ shop.lck.hard = false := by decide +kernel

theorem witness_HardLockUntilTheKeyTurns :
    Quiet noLock ∧ noLock.lck.disabled = true ∧ Quiet shop ∧ RoomU 1 shop ∧ shop.lck.disabled = false
    ∧ shop.lck.settle = .stopped ∧ hardLock.lck.hard = true ∧ shop.lck.hard = false ∧ shop.yardkey = shop.lck.key
    ∧ ({ shop.lck with settle := .running 0 } : Lck).settle = .running 0
    ∧ ({ shop with yardkey := .low } : Part).yardkey ≠ shop.lck.key := by decide +kernel

/-- The shop with a freeze in force, its timer running. -/
def frozen : Part := { shop with psu := { shop.psu with freeze := .frozen, freezeTimer := .running 1 } }

/-- The shop with job 63 CLOSED. -/
def closedJob : Part :=
  { shop with jau := { shop.jau with jobs := shop.jau.jobs.set 63 { Job.free with state := .closed } } }

theorem witness_JobRequestsMoveOneJob :
    Quiet shop ∧ RoomU 1 shop ∧ 64 ≤ (64 : Byte).toNat ∧ (0 : JobNo).val = 0 ∧ (63 : JobNo).val = (63 : Byte).toNat
    ∧ shop.psu.freeze ≠ .frozen ∧ shop.jau.jobs[12].state = .opened ∧ shop.jau.jobs[63].state = .free
    ∧ Quiet frozen ∧ frozen.psu.freeze = .frozen ∧ Quiet closedJob ∧ closedJob.psu.freeze ≠ .frozen
    ∧ closedJob.jau.jobs[63].state = .closed := by decide +kernel

theorem witness_JobReadAnswersInTwoSegments :
    Quiet shop ∧ RoomU 2 shop ∧ 64 ≤ (64 : Byte).toNat ∧ (63 : JobNo).val = (63 : Byte).toNat
    ∧ shop.jau.jobs[63].state = .free ∧ shop.jau.jobs[12].state ≠ .free := by decide +kernel

/-- A full notice queue: 31 notices of the stations and the line, and a last one. -/
def manyNotices : List Notice :=
  [NoticeKind.cutOverrun, .sawFault, .sawSilent, .cutAborted].flatMap fun k =>
    allStations.map fun st => ⟨k, some st, .none, 1, false⟩

theorem witness_NoticesCoalesceJoinOrAreLost :
    (∃ n ∈ manyNotices, n.kind = .sawFault ∧ n.station = some 7)
    ∧ (∀ n ∈ manyNotices, ¬(n.kind = .waterLow ∧ n.station = none)) ∧ 32 ≤ manyNotices.length
    ∧ manyNotices = manyNotices.dropLast ++ [⟨.cutAborted, some 7, .none, 1, false⟩]
    ∧ (∀ n ∈ manyNotices.take 31, ¬(n.kind = .waterLow ∧ n.station = none)) ∧ (manyNotices.take 31).length < 32 := by
  decide +kernel

theorem witness_NoticeReadAndAckServeTheQueue :
    Quiet shop ∧ RoomU 2 shop ∧ shop.ntu.entries = []
    ∧ Quiet { shop with wbu := { tank with band := .low } }
    ∧ (joinNotice { shop.ntu with outstanding := false } .waterLow none .none).entries ≠ [] := by decide +kernel

theorem witness_SummaryExpirySendsTheLineSummary :
    Quiet shop ∧ RoomU 1 shop ∧ shop.ntu.timer = .running 1000
    ∧ ({ shop.ntu with timer := .stopped } : Ntu).timer = .stopped := by decide +kernel

/-- The shop with its tank changed. -/
def water (f : Wbu → Wbu) : Part := { shop with wbu := f tank }

theorem witness_SampleMovesTheTank :
    Quiet shop ∧ RoomD 2 shop ∧ ForwardU 0 shop ∧ (63 : Byte).toNat ≤ 63 ∧ (40 : Byte).toNat ≤ 62
    ∧ (40 : Byte).toNat = shop.wbu.consts.plantNode ∧ shop.wbu.consts.plantNode ≠ 0
    ∧ NoneFits { tank with waitList := tank.waitList.set 3 (some 300001) }
    ∧ (∀ st : StationNo, shop.cpl[st].active = none ∧ shop.stc[st].holds.water = false)
    ∧ (1 : Word).toNat < shop.wbu.allowance ∧ shop.wbu.band ≠ .low ∧ shop.wbu.quality = .clear
    ∧ (bandAfter tank.consts .makeup 599999 = .makeup ∧ tank.valve = .closed)
    ∧ (bandAfter tank.consts .makeup 1200000 = .normal ∧ (water fun u => { u with valve := .opened }).wbu.valve = .opened)
    ∧ bandAfter tank.consts .makeup 600000 = .normal
    ∧ (bandAfter tank.consts .low 249999 = .low ∧ bandAfter tank.consts .low 250000 = .makeup) := by decide +kernel

/-- A cutting station under the water hold: samples of 190000 and 300000 litres are below and above the low mark. -/
theorem witness_SampleMovesTheTank_holds :
    (∀ c ∈ [StationState.running, .held], Quiet (cutting c none) ∧ RoomD 2 (cutting c none)
      ∧ (cutting c none).stc[0] = ⟨c, .cell, .empty, none⟩ ∧ programWaits (cutting c none).cpl[0] = false
      ∧ (cutting c none).cpl[0].active = some active
      ∧ (∀ x : StationNo, x ≠ 0 → (cutting c none).cpl[x].active = none) ∧ (cutting c none).ntu.outstanding = true)
    ∧ bandAfter tank.consts tank.band 190000 = .low ∧ bandAfter tank.consts tank.band 300000 = .makeup
    ∧ (tank.consts.turbidityLimit < 41 ∧ ¬tank.consts.turbidityLimit < 40)
    ∧ (∀ h ∈ [(⟨true, false, false⟩ : HoldSet), ⟨true, true, false⟩, ⟨true, false, true⟩],
        ∀ x : StationNo, x ≠ 0 → (held ⟨.held, .cell, h, none⟩).stc[x].holds.water = false) := by decide +kernel

theorem witness_SampleTimeoutMakesTheTankStale :
    Quiet shop ∧ RoomD 1 shop ∧ shop.wbu.sampleTimer = .running 5000 ∧ shop.ntu.outstanding = true
    ∧ shop.wbu.valve = .closed ∧ Quiet (water fun u => { u with valve := .opened })
    ∧ (water fun u => { u with valve := .opened }).wbu.valve = .opened := by decide +kernel

theorem witness_NewDaySetsTheAllowance :
    Quiet shop ∧ RoomU 1 shop ∧ RoomD 1 shop ∧ NoneFits shop.wbu ∧ 0 < shop.wbu.consts.dailyAllowance
    ∧ (shop.wbu.valve = .closed ∧ shop.wbu.band ≠ .normal ∧ shop.wbu.freshness = .live)
    ∧ (water fun u => { u with valve := .opened, level := 1200000 }).wbu.consts.makeupOff ≤ 1200000
    ∧ (water fun u => { u with band := .normal }).wbu.band = .normal
    ∧ (water fun u => { u with valve := .opened }).wbu.level < tank.consts.makeupOff := by decide +kernel

/-- The shop with station 0 in SERVICE and its chain WAITING for exactly the water that is there. -/
def waits : Part :=
  ringWith (claimed .waiting) .waiting 300000
    { held .initial with wbu := { tank with band := .normal, waitList := tank.waitList.set 0 (some 300000) } }

theorem witness_NewDaySetsTheAllowance_grants :
    Quiet waits ∧ RoomU 1 waits ∧ RoomD 1 waits ∧ 0 < waits.wbu.consts.dailyAllowance ∧ waits.wbu.valve = .closed
    ∧ waits.wbu.band = .normal ∧ waits.wbu.freshness = .live ∧ waits.wbu.quality = .clear
    ∧ waits.wbu.waitList[0] = some 300000 ∧ (∀ y : StationNo, y ≠ 0 → waits.wbu.waitList[y] = none)
    ∧ 300000 ≤ waits.wbu.level - waits.wbu.consts.lowMark - waits.wbu.reserved
    ∧ waits.oqu[0].producer = waits.oqu[0].consumer + 1 ∧ waits.oqu[0].consumer = 15
    ∧ waits.oqu[0].slots[waits.oqu[0].consumer] = some (claimed .waiting)
    ∧ waits.oqu[0].chains = [⟨(claimed .waiting).chain, (claimed .waiting).slot, 1, .waiting, 300000⟩]
    ∧ waits.cpl[0].onDeck = none ∧ waits.cpl[0].active = none ∧ waits.stc[0].state ≠ .idle := by decide +kernel

theorem witness_WaterWriteReplacesTheTable :
    Quiet shop ∧ RoomU 1 shop ∧ 62 < (63 : Byte).toNat ∧ (1 : Byte).toNat = 1
    ∧ (100 < 200 ∧ 200 < 300 ∧ 300 ≤ (300 : Word).toNat) ∧ NoneFits shop.wbu
    ∧ (∀ st : StationNo, shop.cpl[st].active = none ∧ shop.stc[st].holds.water = false)
    ∧ shop.wbu.valve = .closed ∧ (water fun u => { u with freshness := .stale }).wbu.freshness = .stale
    ∧ bandAfter ⟨300, 100, 0, 200, 300, 40, 5, 0, 40⟩ .makeup 300 = .normal := by decide +kernel

/-- The shop with a buffer at station 0. -/
def posting (x : Posting) : Part := { shop with psu := { shop.psu with posts := shop.psu.posts.set 0 x } }

def entry : Entry := ⟨.house, false, 10, 20, 30, 0, 0⟩

theorem witness_UsageIsDebitedAndPosted :
    Quiet shop ∧ (63 : Byte).toNat ≤ 63 ∧ (10 : Byte).toNat ≤ 62 ∧ stationOf shop 10 = some 0 ∧ ForwardU 11 shop
    ∧ shop.cpl[0].active = none ∧ (cutting .running none).cpl[0].active = some active ∧ shop.psu.freeze = .thawed
    ∧ shop.psu.posts[0].buffer.length < 8
    ∧ (frozen.psu.freeze ≠ .thawed ∧ ∀ y ∈ [({ entry with charge := true } : Entry)], y.charge = true)
    ∧ (List.replicate 7 entry ++ entry :: []).length = 8
    ∧ (∀ y ∈ [({ entry with charge := true } : Entry)], y.charge = true) ∧ entry.charge = false
    ∧ entry.target = shop.psu.posts[0].target ∧ entry.run + (65535 : Half).toNat < 4294967295
    ∧ (0 < (5 : Half).toNat ∧ 4294967295 ≤ ({ entry with water := 4294967290 } : Entry).water + (5 : Half).toNat)
    ∧ (∀ y ∈ List.replicate 8 ({ entry with charge := true } : Entry), y.charge = true) ∧ shop.ntu.outstanding = true := by
  decide +kernel

theorem witness_DrainsApplyEntriesAndTimersStartThem :
    Quiet frozen ∧ frozen.psu.freeze = .frozen
    ∧ Quiet (posting ⟨.house, [entry, entry], 1, .running 5⟩) ∧ (posting ⟨.house, [entry, entry], 1, .running 5⟩).psu.freeze ≠ .frozen
    ∧ 0 < (posting ⟨.house, [entry, entry], 1, .running 5⟩).psu.posts[0].covered
    ∧ (posting ⟨.house, [entry, entry], 1, .running 5⟩).psu.posts[0].buffer = entry :: [entry]
    ∧ (posting ⟨.house, [entry, entry], 1, .running 5⟩).psu.posts[0].timer = .running 5
    ∧ shop.psu.posts[0].timer = .stopped ∧ Acc.zero.run + entry.run < 4294967295
    ∧ (0 < entry.run ∧ 4294967295 ≤ ({ Acc.zero with run := 4294967265 } : Acc).run + entry.run) := by decide +kernel

/-- The part with an AUDIT FREEZE in PENDING. -/
def freezing (p : Part) : Part :=
  { p with psu := { p.psu with freeze := .pending }, mgu := { p.mgu with inProgress := some ⟨0x3A, 7, .freezing⟩ } }

theorem witness_AuditFreezeWaitsForTheDrains :
    Quiet frozen ∧ Quiet shop ∧ RoomU 1 shop ∧ shop.psu.freeze ≠ .frozen ∧ (∀ st : StationNo, shop.psu.posts[st].covered = 0)
    ∧ Quiet (posting ⟨.house, [entry], 1, .stopped⟩) ∧ 0 < (posting ⟨.house, [entry], 1, .stopped⟩).psu.posts[0].covered
    ∧ ((freezing shop).inReset = false ∧ (freezing shop).mgu.queue = []
      ∧ (freezing shop).mgu.inProgress = some ⟨0x3A, 7, .freezing⟩ ∧ (freezing shop).psu.freeze = .pending
      ∧ (freezing shop).portU.waiting = [] ∧ (freezing shop).portD.waiting = [] ∧ RoomU 1 (freezing shop)) := by decide +kernel

theorem witness_ThawDrainsEveryBuffer :
    Quiet frozen ∧ (∀ st : StationNo, NoneDue frozen st) ∧ RoomU 1 frozen ∧ frozen.psu.freezeTimer = .running 1
    ∧ frozen.ntu.outstanding = true ∧ Quiet shop ∧ (∀ st : StationNo, NoneDue shop st) ∧ shop.psu.freeze = .thawed := by
  decide +kernel

theorem witness_TicketCutsThePieceFromTheCorner :
    ticketOf SawClass.initial (.slab 5) slab5.stone 600 300 = some ticket
    ∧ ticketOf SawClass.initial (.slab 5) slab5.stone 1001 300 = none := by decide +kernel

theorem witness_TicketFiguresAddUp :
    ticketOf SawClass.initial (.slab 5) slab5.stone 600 300 = some ticket ∧ 10 ≤ slab5.stone.thick ∧ slab5.stone.thick ≤ 80
    ∧ (ticketOf SawClass.initial (.slab 5) slab5.stone 1000 500).isSome = true ∧ SawClass.initial.InRange := by
  refine ⟨by decide +kernel, by decide, by decide, by decide +kernel, ?_⟩
  unfold SawClass.InRange
  decide

theorem witness_SplitSharesTheWholeBasis :
    ticketOf SawClass.initial (.slab 5) slab5.stone 600 300 = some ticket := by decide +kernel

/-- Station 0 with a chain at the back of its chain list, and one before it. -/
def chained (chains : List Chain) (p : Part) : Part :=
  { p with oqu := p.oqu.set 0 { Ring.empty with producer := 14, consumer := 0, chains := chains, nextChain := 2 } }

theorem witness_OrderJoinsTheRing :
    Quiet shop ∧ (10 : Byte).toNat ≤ 63 ∧ (62 : Byte).toNat ≤ 62 ∧ stationOf shop 10 = some 0
    ∧ Machine.orderOf fields = some order ∧ Machine.orderOf { fields with chain := 1 } = some { order with chain := true }
    ∧ (chained [] shop).oqu[0].producer + 1 ≠ (chained [] shop).oqu[0].consumer
    ∧ (∀ c, (chained [] shop).oqu[0].chains.getLast? = some c → c.state ≠ .opened)
    ∧ (held .initial).stc[0].state = .service ∧ (held ⟨.idle, .panel, .empty, none⟩).stc[0].owner = .panel
    ∧ (chained [⟨0, 3, 2, .waiting, 90⟩, ⟨1, 5, 6, .opened, 0⟩] shop).oqu[0].chains =
        [⟨0, 3, 2, .waiting, 90⟩] ++ [⟨1, 5, 6, .opened, 0⟩]
    ∧ (∀ d ∈ [(⟨0, 3, 2, .waiting, 90⟩ : Chain)], d.id ≠ 1)
    ∧ (∃ d ∈ [(⟨0, 3, 2, .waiting, 90⟩ : Chain)], d.state = .waiting) := by
  refine ⟨by decide +kernel, by decide, by decide, by decide +kernel, by decide +kernel, by decide +kernel, by decide +kernel,
    fun c h => ?_, by decide +kernel, by decide +kernel, by decide +kernel, by decide, by decide⟩
  cases h

/-- A member of a chain, and one that is a FOLLOW-ON. -/
def member : OrderRec := ⟨order, 3, .queued, 0, 1, none, 0, 0, none, false⟩

def follower : OrderRec := { member with order := { order with source := .followOn } }

theorem witness_OrdersOutOfRangeAreRefused :
    Machine.orderOf fields = some order ∧ Machine.orderOf { fields with len := 49 } = none ∧ Machine.orderOf { fields with source := 512 } = none
    ∧ Quiet shop ∧ RoomU 1 shop ∧ (63 : Byte).toNat ≤ 63 ∧ stationOf shop 11 = none ∧ shop.portD.queue.length < 12
    ∧ stationOf shop 10 = some 0 ∧ (shop.oqu[0].producer + 1 ≠ shop.oqu[0].consumer)
    ∧ ({ Ring.empty with producer := 14, consumer := 15 } : Ring).producer + 1 = 15
    ∧ (∀ c, shop.oqu[0].chains.getLast? = some c → c.state ≠ .opened) := by
  refine ⟨by decide +kernel, by decide +kernel, by decide +kernel, by decide +kernel, by decide +kernel, by decide,
    by decide +kernel, by decide +kernel, by decide +kernel, by decide +kernel, by decide, fun c h => ?_⟩
  rw [show shop.oqu[0].chains = [] from rfl] at h
  cases h

/-- The shop with an open chain of one order at station 0. -/
def openChain (x : OrderRec) : Part := ringWith x .opened 0 shop

theorem witness_OrdersOutOfRangeAreRefused_openChain :
    Quiet (openChain member) ∧ RoomU 2 (openChain member) ∧ stationOf (openChain member) 10 = some 0
    ∧ (openChain member).oqu[0].producer = (openChain member).oqu[0].consumer + 1
    ∧ (openChain member).oqu[0].slots[(openChain member).oqu[0].consumer] = some { member with slot := 15 }
    ∧ (openChain member).oqu[0].consumer = 15 ∧ member.state = .queued ∧ member.ticket = none
    ∧ (openChain member).oqu[0].chains = [⟨member.chain, 15, 1, .opened, 0⟩] ∧ (openChain member).cpl[0].onDeck = none
    ∧ (openChain member).ntu.outstanding = true ∧ Machine.orderOf { fields with len := 49 } = none := by decide +kernel

theorem witness_ClaimChecksFailInOrder :
    (part id).jau.jobs[member.order.job].state ≠ .opened ∧ shop.jau.jobs[member.order.job].state = .opened
    ∧ member.order.source = .slab 5 ∧ (part id).stk.slabs[5] = none ∧ shop.stk.slabs[5] = some slab5
    ∧ (cutting .running none).stk.slabs[5].map (·.state) = some (.cutting ⟨0, 3⟩) ∧ slab5.state = .stock
    ∧ cuttable (locked shop).lck 5 = false ∧ cuttable shop.lck 5 = true ∧ (5 : SlabNo) ∈ [(5 : SlabNo)]
    ∧ follower.order.source = .followOn ∧ Progress.start.last = none
    ∧ ticket.remA.map (·.kept) = some true
    ∧ (ticketOf bridge .followOn ⟨3200, 322, 30, 0, 2⟩ 1800 318).map (·.remA) = some none
    ∧ (∃ stone, memberStone shop .start order = .ok stone)
    ∧ ticketOf SawClass.initial order.source slab5.stone 1001 300 = none
    ∧ ticketOf SawClass.initial order.source slab5.stone order.len order.wid = some ticket
    ∧ 512 < usedCount shop.stk + 511 + ticket.planned
    ∧ (usedCount shop.stk + shop.stk.reservations + ticket.planned ≤ 512
        ∧ shop.wbu.consts.capacity - shop.wbu.consts.lowMark < 1300000 + ticket.water
        ∧ ticket.water ≤ shop.wbu.consts.capacity - shop.wbu.consts.lowMark) := by
  refine ⟨by decide +kernel, by decide +kernel, rfl, by decide +kernel, by decide +kernel, by decide +kernel, rfl,
    by decide +kernel, by decide +kernel, by decide, rfl, rfl, by decide +kernel, by decide +kernel, ⟨_, rfl⟩,
    by decide +kernel, by decide +kernel, by decide +kernel, by decide +kernel, by decide +kernel, by decide +kernel⟩

/-- The order of `fields`, alone and then behind an open chain of one, where job 13 is not OPEN. -/
theorem witness_ClaimChecksFailInOrder_refusals :
    Machine.orderOf fields = some order ∧ Machine.orderOf { fields with job := 13 } = some { order with job := 13 }
    ∧ order.chain = false
    ∧ (Quiet shop ∧ RoomU 1 shop ∧ stationOf shop 10 = some 0 ∧ shop.stc[0].state ≠ .service ∧ shop.stc[0].owner = .cell
      ∧ shop.cpl[0].onDeck = none ∧ shop.ntu.outstanding = true ∧ shop.oqu[0].producer = shop.oqu[0].consumer
      ∧ shop.oqu[0].chains = [])
    ∧ checkMember shop 0 .start ⟨{ order with job := 13 }, 0, .queued, 0, 1, none, 0, 0, none, false⟩ = .error .jobNotOpen
    ∧ (∀ x ∈ [member, { member with order := { order with job := 13 } }],
      Quiet (openChain x) ∧ RoomU 2 (openChain x) ∧ stationOf (openChain x) 10 = some 0
      ∧ (openChain x).stc[0] = shop.stc[0] ∧ (openChain x).cpl[0].onDeck = none ∧ (openChain x).ntu.outstanding = true
      ∧ (openChain x).oqu[0].producer = (openChain x).oqu[0].consumer + 1 ∧ (openChain x).oqu[0].consumer = 15
      ∧ (openChain x).oqu[0].slots[(openChain x).oqu[0].consumer] = some { x with slot := 15 } ∧ x.state = .queued
      ∧ x.ticket = none ∧ (openChain x).oqu[0].chains = [⟨x.chain, 15, 1, .opened, 0⟩])
    ∧ checkMember (openChain { member with order := { order with job := 13 } }) 0 .start
        { member with slot := 15, order := { order with job := 13 } } = .error .jobNotOpen
    ∧ (match checkMember (openChain member) 0 .start { member with slot := 15 } with
      | .ok g => decide (checkMember (openChain member) 0 g ⟨order, 0, .queued, 0, 2, none, 0, 0, none, false⟩ =
          .error .slabTwice)
      | .error _ => false) = true := by decide +kernel

theorem witness_AnOrderAloneIsCutAtOnce :
    Quiet shop ∧ RoomD 1 shop ∧ stationOf shop 10 = some 0 ∧ Machine.orderOf fields = some order ∧ order.chain = false
    ∧ AtRest shop 0 ∧ shop.stc[0] = ⟨.idle, .cell, ⟨false, false, false⟩, none⟩ ∧ shop.psu.freeze ≠ .frozen
    ∧ shop.psu.posts[0].buffer = [] ∧ shop.jau.jobs[order.job].state = .opened ∧ order.source = .slab 5
    ∧ shop.stk.slabs[5] = some slab5 ∧ slab5.state = .stock ∧ cuttable shop.lck 5 = true
    ∧ ticketOf shop.classes[shop.map[0].cls] order.source slab5.stone order.len order.wid = some ticket
    ∧ ticket.rip = true ∧ usedCount shop.stk + shop.stk.reservations + ticket.planned ≤ 512
    ∧ ticket.water ≤ shop.wbu.consts.capacity - shop.wbu.consts.lowMark ∧ shop.wbu.freshness = .live
    ∧ shop.wbu.quality = .clear ∧ shop.wbu.band ≠ .low
    ∧ ticket.water ≤ shop.wbu.level - shop.wbu.consts.lowMark - shop.wbu.reserved := by decide +kernel

/-- An empty tank denies the same order its water. -/
theorem witness_AnOrderAloneIsCutAtOnce_waits :
    ¬(ticket.water ≤ (water fun u => { u with level := 200000 }).wbu.level - tank.consts.lowMark - tank.reserved)
    ∧ Quiet (water fun u => { u with level := 200000 }) := by decide +kernel

/-- Station 0 with one order QUEUED in its ring. -/
def queued : Part := ringWith member .unclaimed 0 shop

theorem witness_FlushClosesTheOrders :
    Quiet shop ∧ stationOf shop 10 = some 0 ∧ shop.cpl[0].onDeck = none ∧ RoomU 2 shop
    ∧ (shop.oqu[0].producer = shop.oqu[0].consumer ∧ shop.oqu[0].chains = [])
    ∧ Quiet queued ∧ stationOf queued 10 = some 0 ∧ queued.cpl[0].onDeck = none ∧ RoomU 2 queued
    ∧ queued.oqu[0].producer = queued.oqu[0].consumer + 1
    ∧ queued.oqu[0].slots[queued.oqu[0].consumer] = some { member with slot := 15 } ∧ member.state = .queued
    ∧ queued.oqu[0].consumer = 15 ∧ member.ticket = none := by decide +kernel

/-- A claimed order in the ring, its slab RESERVED, while station 3 waits for more water than there is. -/
theorem witness_FlushClosesTheOrders_claimed :
    (∀ x ∈ [claimed .waiting, claimed .admitted], Quiet (ringWith x .waiting 300 (reserved shop))
      ∧ RoomU 2 (ringWith x .waiting 300 (reserved shop)) ∧ stationOf (ringWith x .waiting 300 (reserved shop)) 10 = some 0
      ∧ (ringWith x .waiting 300 (reserved shop)).cpl[0].onDeck = none
      ∧ (ringWith x .waiting 300 (reserved shop)).oqu[0].producer = 15 + 1
      ∧ (ringWith x .waiting 300 (reserved shop)).oqu[0].consumer = 15
      ∧ (ringWith x .waiting 300 (reserved shop)).oqu[0].slots[15] = some x ∧ x.slot = 15 ∧ x.ticket = some ticket
      ∧ x.sourceRecord = some 5)
    ∧ (reserved shop).stk.slabs[5] = some { slab5 with state := .reserved ⟨0, 15⟩ }
    ∧ NoneFits { tank with waitList := tank.waitList.set 3 (some 300001) } := by decide +kernel

theorem witness_FlushClosesTheOrders_onDeck :
    (∀ staged ∈ [none, some (9 : Byte)], Quiet (deck (claimed .onDeck) staged (reserved shop))
      ∧ RoomU 2 (deck (claimed .onDeck) staged (reserved shop)) ∧ RoomD 1 (deck (claimed .onDeck) staged (reserved shop))
      ∧ stationOf (deck (claimed .onDeck) staged (reserved shop)) 10 = some 0
      ∧ (deck (claimed .onDeck) staged (reserved shop)).cpl[0].onDeck = some ⟨claimed .onDeck, staged⟩
      ∧ (deck (claimed .onDeck) staged (reserved shop)).cpl[0].frames = []
      ∧ (deck (claimed .onDeck) staged (reserved shop)).oqu[0].producer = (reserved shop).oqu[0].consumer
      ∧ (deck (claimed .onDeck) staged (reserved shop)).oqu[0].chains = [] ∧ NoneFits (reserved shop).wbu)
    ∧ (claimed .onDeck).state = .onDeck ∧ (claimed .onDeck).ticket = some ticket
    ∧ (claimed .onDeck).sourceRecord = some 5 ∧ (claimed .onDeck).slot = 15 := by decide +kernel

theorem witness_HoldReasonsPauseAndResumeTheSaw :
    Quiet shop ∧ (63 : Byte).toNat ≤ 63 ∧ (62 : Byte).toNat ≤ 62 ∧ programWaits shop.cpl[0] = false
    ∧ shop.stc[0].behind = none ∧ RoomD 1 shop ∧ RoomU 1 shop ∧ ForwardU 0 shop ∧ stationOf shop 10 = some 0
    ∧ (∀ c : StationCtx, (held c).stc[0] = c) ∧ NoneDue shop 0
    ∧ (cutting .running none).stc[0].state = .running ∧ (cutting .running none).stc[0].holds = ⟨false, false, false⟩
    ∧ programWaits (cutting .running none).cpl[0] = false ∧ Quiet (cutting .running none) := by
  refine ⟨by decide +kernel, by decide, by decide, by decide +kernel, by decide +kernel, by decide +kernel, by decide +kernel,
    by decide +kernel, by decide +kernel, fun c => ?_, by decide +kernel, by decide +kernel, by decide +kernel,
    by decide +kernel, by decide +kernel⟩
  simp [held]

theorem witness_StopEntriesStopTheSaw :
    Quiet shop ∧ stationOf shop 10 = some 0 ∧ RoomU 1 shop ∧ shop.stc[0].state ≠ .running ∧ shop.stc[0].state ≠ .held
    ∧ Quiet (cutting .running none) ∧ stationOf (cutting .running none) 10 = some 0
    ∧ (cutting .running none).stc[0].state = .running ∧ (cutting .held none).stc[0].state = .held
    ∧ (cutting .running none).cpl[0].active = some active ∧ (cutting .running none).cpl[0].frames = []
    ∧ RoomD 1 (cutting .running none) ∧ (cutting .running none).cpl[0].overrun = .running 90000
    ∧ (cutting .running none).ntu.outstanding = true ∧ (0 : Byte).toNat = 0 ∧ 5 ≤ (5 : Byte).toNat
    ∧ shop.cpl[0].overrun = .stopped := by decide +kernel

theorem witness_PanelClaimsAndReleases :
    Quiet shop ∧ stationOf shop 10 = some 0 ∧ ForwardU 0 shop ∧ shop.stc[0].state = .idle ∧ shop.stc[0].owner = .cell
    ∧ RoomD 1 shop ∧ (∀ d, shop.cpl[0].onDeck = some d → d.staged = none) ∧ shop.ntu.outstanding = true
    ∧ (held ⟨.service, .panel, .empty, none⟩).stc[0] = ⟨.service, .panel, .empty, none⟩
    ∧ NoneDue (held ⟨.service, .panel, .empty, none⟩) 0
    ∧ (cutting .running none).stc[0].state = .running ∧ ForwardU 0 (cutting .running none) := by
  refine ⟨by decide +kernel, by decide +kernel, by decide +kernel, by decide +kernel, by decide +kernel, by decide +kernel,
    fun d h => ?_, by decide +kernel, by decide +kernel, by decide +kernel, by decide +kernel, by decide +kernel⟩
  rw [show shop.cpl[0].onDeck = none from rfl] at h
  cases h

theorem witness_PanelClaimsAndReleases_staged :
    (∀ c ∈ [StationState.service, .idle], Quiet (deck (claimed .onDeck) (some 9) (held ⟨c, .cell, .empty, none⟩))
      ∧ RoomD 2 (deck (claimed .onDeck) (some 9) (held ⟨c, .cell, .empty, none⟩))
      ∧ ForwardU 0 (deck (claimed .onDeck) (some 9) (held ⟨c, .cell, .empty, none⟩))
      ∧ (deck (claimed .onDeck) (some 9) (held ⟨c, .cell, .empty, none⟩)).stc[0] = ⟨c, .cell, .empty, none⟩
      ∧ (deck (claimed .onDeck) (some 9) (held ⟨c, .cell, .empty, none⟩)).cpl[0].onDeck = some ⟨claimed .onDeck, some 9⟩
      ∧ (deck (claimed .onDeck) (some 9) (held ⟨c, .cell, .empty, none⟩)).cpl[0].frames = []
      ∧ (deck (claimed .onDeck) (some 9) (held ⟨c, .cell, .empty, none⟩)).ntu.outstanding = true) := by decide +kernel

theorem witness_ReportsNameTheActiveTicket :
    Quiet (cutting .running none) ∧ stationOf (cutting .running none) 10 = some 0 ∧ ForwardU 0 (cutting .running none)
    ∧ (cutting .running none).cpl[0].active = some active ∧ active.ticket = 7
    ∧ programWaits (cutting .running none).cpl[0] = false ∧ 1 ≤ (1 : Byte).toNat ∧ (32 : Byte).toNat ≤ 32
    ∧ active.ticket ≠ 8 ∧ (0 : Byte).toNat = 0 ∧ 32 < (33 : Byte).toNat
    ∧ programWaits (listed .go (some 7) (cutting .running none)).cpl[0] = true
    ∧ (cutting .running none).ntu.outstanding = true := by decide +kernel

theorem witness_RemnantsTakeTheLowestFreeRecords :
    shop.stk.slabs[0] = none ∧ (∀ i : SlabNo, i.val < 0 → shop.stk.slabs[i] ≠ none) := by
  exact ⟨by decide +kernel, fun i h => absurd h (Nat.not_lt_zero _)⟩

theorem witness_CompletionSettlesTheOrder :
    Quiet (cutting .running none) ∧ RoomU 1 (cutting .running none) ∧ stationOf (cutting .running none) 10 = some 0
    ∧ (cutting .running none).cpl[0].active = some active ∧ active.ticket = 7 ∧ (cutting .running none).cpl[0].frames = []
    ∧ active.order.ticket = some ticket ∧ active.order.sourceRecord = some 5
    ∧ (cutting .running none).stk.slabs[5] = some { slab5 with state := .cutting ⟨0, 3⟩ }
    ∧ nextMember (cutting .running none) 0 active.order = none ∧ NoneDue (cutting .running none) 0
    ∧ NoneFits (cutting .running none).wbu ∧ (cutting .running none).psu.freeze ≠ .frozen
    ∧ (cutting .running none).psu.posts[0].buffer.length < 8 ∧ order.summaryNow = false := by decide +kernel

/-- The cutting station with the follow-on of its order on-deck, and PANEL in its hold set. -/
def followed : Part :=
  deck behind (some 8) { cutting .held none with stc := shop.stc.set 0 ⟨.held, .cell, ⟨false, true, false⟩, none⟩ }

theorem witness_CompletionSettlesTheOrder_followOn :
    Quiet followed ∧ RoomU 1 followed ∧ stationOf followed 10 = some 0 ∧ followed.cpl[0].active = some active
    ∧ followed.cpl[0].frames = [] ∧ followed.cpl[0].onDeck = some ⟨behind, some 8⟩ ∧ behind.state = .onDeck
    ∧ behind.order.source = .followOn ∧ behind.chain = active.order.chain ∧ behind.pos = active.order.pos + 1
    ∧ followed.stc[0].holds ≠ ⟨false, false, false⟩ ∧ followed.oqu[0].headAdmitted = none
    ∧ followed.oqu[0].headSpent = false ∧ ticket.remA.map (·.kept) = some true ∧ ticket.kept.head? = ticket.remA
    ∧ (createRemnants slab5 5 ticket.gen (ticket.kept.zip ((splitOf ticket slab5.basis).bases.zip
        (.reserved ⟨0, behind.slot⟩ :: ticket.kept.tail.map fun _ => .stock))) followed.stk).2.head? =
          some (0, 1000, 196) := by decide +kernel

theorem witness_FailuresLeaveTheRecordDoubtful :
    (∀ why ∈ [none, some StopReason.aborted, some StopReason.overrun],
      Quiet (cutting .stopping why) ∧ RoomU 2 (cutting .stopping why) ∧ stationOf (cutting .stopping why) 10 = some 0
      ∧ (cutting .stopping why).cpl[0].active = some { active with stop := why } ∧ (cutting .stopping why).cpl[0].frames = []
      ∧ (cutting .stopping why).stk.slabs[5] = some { slab5 with state := .cutting ⟨0, 3⟩ }
      ∧ nextMember (cutting .stopping why) 0 active.order = none ∧ NoneDue (cutting .stopping why) 0
      ∧ NoneFits (cutting .stopping why).wbu ∧ (cutting .stopping why).ntu.outstanding = true)
    ∧ active.order.state = .active ∧ active.order.ticket = some ticket ∧ active.order.sourceRecord = some 5
    ∧ (cutting .stopping (some .aborted)).cpl[0].stop = .running 10000 ∧ (cutting .running none).cpl[0].stop = .stopped
    ∧ 2 ≤ (2 : Byte).toNat := by decide +kernel

theorem witness_FailuresLeaveTheRecordDoubtful_followOn :
    Quiet (deck behind (some 8) (cutting .stopping none)) ∧ RoomU 2 (deck behind (some 8) (cutting .stopping none))
    ∧ (deck behind (some 8) (cutting .stopping none)).cpl[0].active = some active
    ∧ (deck behind (some 8) (cutting .stopping none)).cpl[0].onDeck = some ⟨behind, some 8⟩ ∧ behind.bound = none
    ∧ behind.ticket = some ticket
    ∧ (∀ y ∈ (deck behind (some 8) (cutting .stopping none)).oqu[0].openOrders, y.chain ≠ active.order.chain)
    ∧ NoneFits { tank with reserved := 0 - (active.order.remaining + behind.remaining) } := by decide +kernel

/-- A slab of the size of the order's piece: a take-whole order, whose ticket has no cut and no remnant. -/
def whole : Ticket := (ticketOf SawClass.initial (.slab 5) slab5.stone 1000 500).get (by decide)

theorem witness_OnDeckOrdersAreStagedAndPromoted_staging :
    (∀ slab ∈ [slab5, { slab5 with thick := 10 }],
      let p : Part := { cutting .running none with stk := shop.stk.slabs.set 5 (some slab) |> (⟨·, 0⟩) }
      Quiet p ∧ RoomD 1 p ∧ stationOf p 10 = some 0 ∧ p.oqu[0].producer = p.oqu[0].consumer ∧ p.oqu[0].chains = []
      ∧ p.cpl[0].onDeck = none ∧ p.cpl[0].active ≠ none ∧ p.cpl[0].frames = [] ∧ p.stc[0].state ≠ .service
      ∧ p.stc[0].owner = .cell ∧ p.stk.slabs[5] = some slab ∧ slab.state = .stock)
    ∧ Machine.orderOf fields = some order
    ∧ Machine.orderOf { fields with len := 1000, wid := 500 } = some { order with len := 1000, wid := 500 }
    ∧ (ticket.rip = true ∧ ticket.cross = true) ∧ (whole.rip = false ∧ whole.cross = false)
    ∧ ticketOf shop.classes[shop.map[0].cls] (.slab 5) slab5.stone 1000 500 = some whole
    ∧ whole.water ≤ tank.level - tank.consts.lowMark - tank.reserved := by decide +kernel

/-- An IDLE station held by CELL, with an order on-deck. -/
def ready (x : OrderRec) (staged : Option Byte) : Part :=
  deck x staged (reserved (held ⟨.idle, .cell, ⟨false, false, true⟩, none⟩))

theorem witness_OnDeckOrdersAreStagedAndPromoted_promotion :
    (∀ x ∈ [claimed .onDeck, { claimed .onDeck with ticket := some whole }], ∀ staged ∈ [none, some (9 : Byte)],
      Quiet (ready x staged) ∧ RoomU 2 (ready x staged) ∧ RoomD 2 (ready x staged) ∧ stationOf (ready x staged) 10 = some 0
      ∧ (ready x staged).stc[0] = ⟨.idle, .cell, ⟨false, false, true⟩, none⟩ ∧ (ready x staged).cpl[0].active = none
      ∧ (ready x staged).cpl[0].frames = [] ∧ (ready x staged).cpl[0].onDeck = some ⟨x, staged⟩ ∧ x.sourceRecord = some 5
      ∧ x.slot = 15 ∧ (ready x staged).stk.slabs[5] = some { slab5 with state := .reserved ⟨0, 15⟩ }
      ∧ (ready x staged).psu.freeze ≠ .frozen ∧ (ready x staged).oqu[0].headSpent = false
      ∧ (ready x staged).oqu[0].headAdmitted = none ∧ (ready x staged).wbu.band ≠ .low
      ∧ (ready x staged).wbu.quality = .clear ∧ (∀ y ∈ (ready x staged).oqu[0].openOrders, y.chain ≠ x.chain)
      ∧ (ready x staged).psu.posts[0].buffer.length < 8 ∧ NoneFits (ready x staged).wbu)
    ∧ order.summaryNow = false ∧ ticket.rip = true ∧ whole.remA = none ∧ whole.remB = none
    ∧ (water fun u => { u with band := .low }).wbu.band = .low := by decide +kernel

theorem witness_WarmResetKeepsTablesAndStock :
    shop.inReset = false ∧ shop.stk.slabs[6] = none ∧ shop.stk.slabs[5] = some slab5
    ∧ (after .resetnAssert shop).inReset = true ∧ (after .resetnAssert shop).mgu.queue = []
    ∧ (after .resetnAssert shop).mgu.inProgress = none ∧ (after .resetnAssert shop).portU.waiting = []
    ∧ (after .resetnAssert shop).portD.waiting = [] ∧ (after .resetnAssert shop).portD.queue.length ≤ 7
    ∧ (∀ st : StationNo, AtRest (after .resetnAssert shop) st) := by decide +kernel

/-- The part with a LINE RESET in progress whose drains are done. -/
def resetting : Part := part fun p =>
  { p with mgu := { p.mgu with inProgress := some ⟨2, 7, .resetting []⟩ }, ntu := { p.ntu with outstanding := true } }

theorem witness_LineResetEndsWithEveryStationInService :
    Quiet shop ∧ RoomU 1 shop ∧ shop.ntu.outstanding = true ∧ shop.portU.dropped ≤ 65535
    ∧ (∀ st : StationNo, AtRest shop st ∧ shop.psu.posts[st].buffer = [] ∧ shop.psu.posts[st].covered = 0
        ∧ ∀ i : SlotNo, shop.oqu[st].slots[i] = none)
    ∧ (resetting.inReset = false ∧ resetting.mgu.queue = [] ∧ resetting.mgu.inProgress = some ⟨2, 7, .resetting []⟩
      ∧ resetting.portU.waiting = [] ∧ resetting.portD.waiting = [] ∧ RoomU 1 resetting ∧ resetting.ntu.outstanding = true)
    ∧ (∀ st : StationNo, resetting.stc[st].state = .service ∧ resetting.cpl[st].frames = []
        ∧ ∀ i : SlotNo, resetting.oqu[st].slots[i] = none) := by decide +kernel

/-- Station 0 with a buffered entry, an active order, an on-deck order and a QUEUED one; every other station at rest. -/
theorem witness_LineResetEndsWithEveryStationInService_orders :
    (∀ p ∈ [posting ⟨.house, [entry], 0, .running 5⟩, cutting .running none, deck (claimed .onDeck) (some 9) (reserved shop),
        queued],
      Quiet p ∧ RoomU 2 p ∧ RoomD 1 p ∧ p.ntu.outstanding = true ∧ p.portU.dropped ≤ 65535
      ∧ p.cpl[0].frames = []
      ∧ (∀ y : StationNo, p.psu.posts[y].covered = 0)
      ∧ ∀ y : StationNo, y ≠ 0 → AtRest p y ∧ p.psu.posts[y].buffer = [] ∧ ∀ i : SlotNo, p.oqu[y].slots[i] = none)
    ∧ AtRest (posting ⟨.house, [entry], 0, .running 5⟩) 0
    ∧ (posting ⟨.house, [entry], 0, .running 5⟩).psu.posts[0].buffer ≠ []
    ∧ ((cutting .running none).cpl[0].active = some active ∧ (cutting .running none).cpl[0].onDeck = none
      ∧ active.order.state = .active ∧ active.order.ticket = some ticket ∧ active.order.sourceRecord = some 5
      ∧ (cutting .running none).stk.slabs[5] = some { slab5 with state := .cutting ⟨0, 3⟩ })
    ∧ ((deck (claimed .onDeck) (some 9) (reserved shop)).cpl[0].onDeck = some ⟨claimed .onDeck, some 9⟩
      ∧ (claimed .onDeck).order.source = .slab 5 ∧ (deck (claimed .onDeck) (some 9) (reserved shop)).cpl[0].active = none)
    ∧ (queued.oqu[0].producer = queued.oqu[0].consumer + 1 ∧ queued.oqu[0].consumer = 15
      ∧ queued.oqu[0].slots[15] = some { member with slot := 15 }
      ∧ (∀ i : SlotNo, i ≠ 15 → queued.oqu[0].slots[i] = none) ∧ queued.cpl[0].active = none
      ∧ queued.cpl[0].onDeck = none) := by decide +kernel

/-- Station 0 with an active order of slot 3, an on-deck order of slot 4 and a QUEUED order at the head of its ring, and a
USAGE of its saw that LIF has not yet handed over. -/
def threeOrders (second : OrderRec) : Part :=
  let p := cutting .running none
  { p with
    portD := { p.portD with received := [⟨⟨0, 10, 0x63, List.replicate 6 0⟩, .usage 0⟩] }
    stk := { p.stk with slabs := p.stk.slabs.set 6 (some { slab5 with state := .reserved ⟨0, 4⟩ }) }
    oqu := queued.oqu
    cpl := p.cpl.set 0 { p.cpl[0] with onDeck := some ⟨second, some 8⟩ } }

/-- The on-deck order of slot 4: from slab 6, or the follow-on of the active order. -/
def second (source : Source) : OrderRec :=
  { claimed .onDeck with order := { order with source := source }, slot := 4 }

theorem witness_LineResetEndsWithEveryStationInService_three :
    (∀ p ∈ [threeOrders (second (.slab 6)), threeOrders (second .followOn)],
      Quiet { p with portD := { p.portD with received := [] } } ∧ p.portD.received.length = 1 ∧ RoomU 4 p ∧ RoomD 2 p
      ∧ p.ntu.outstanding = true ∧ p.portU.dropped ≤ 65535 ∧ (∀ y : StationNo, p.psu.posts[y].covered = 0)
      ∧ ∀ y : StationNo, y ≠ 0 → AtRest p y ∧ p.psu.posts[y].buffer = [] ∧ ∀ i : SlotNo, p.oqu[y].slots[i] = none)
    ∧ (∀ p ∈ [threeOrders (second (.slab 6)), threeOrders (second .followOn)],
      p.psu.posts[0].buffer = [] ∧ p.cpl[0].frames = [] ∧ p.cpl[0].active = some active
      ∧ p.oqu[0].producer = p.oqu[0].consumer + 1 ∧ p.oqu[0].consumer = 15
      ∧ p.oqu[0].slots[15] = some { member with slot := 15 } ∧ (∀ i : SlotNo, i ≠ 15 → p.oqu[0].slots[i] = none)
      ∧ p.stk.slabs[5] = some { slab5 with state := .cutting ⟨0, 3⟩ }
      ∧ p.stk.slabs[6] = some { slab5 with state := .reserved ⟨0, 4⟩ })
    ∧ (∀ source ∈ [Source.slab 6, Source.followOn],
      (threeOrders (second source)).cpl[0].onDeck = some ⟨second source, some 8⟩ ∧ (second source).slot = 4
      ∧ (second source).state = .onDeck ∧ (second source).ticket = some ticket ∧ (second source).order.source = source)
    ∧ (active.order.state = .active ∧ active.order.ticket = some ticket ∧ active.order.sourceRecord = some 5
      ∧ member.state = .queued ∧ member.ticket = none ∧ (second .followOn).sourceRecord = none) := by decide +kernel

/-- The LINE RESET that waits for the last application of station 0's drain. -/
def resettingLast : Part :=
  { resetting with
    mgu := { resetting.mgu with inProgress := some ⟨2, 7, .resetting [0]⟩ }
    psu := { resetting.psu with posts := resetting.psu.posts.set 0 ⟨.house, [entry], 1, .stopped⟩ } }

theorem witness_LineResetEndsWithEveryStationInService_drain :
    resettingLast.inReset = false ∧ resettingLast.mgu.queue = []
    ∧ resettingLast.mgu.inProgress = some ⟨2, 7, .resetting [0]⟩ ∧ resettingLast.portU.waiting = []
    ∧ resettingLast.portD.waiting = [] ∧ RoomU 1 resettingLast ∧ resettingLast.ntu.outstanding = true
    ∧ (∀ st : StationNo, resettingLast.stc[st].state = .service ∧ resettingLast.cpl[st].frames = []
        ∧ ∀ i : SlotNo, resettingLast.oqu[st].slots[i] = none)
    ∧ resettingLast.psu.freeze ≠ .frozen ∧ resettingLast.psu.posts[0].buffer = [entry]
    ∧ resettingLast.psu.posts[0].covered = 1
    ∧ ((resettingLast.jau.jobs[entry.target.job].acc entry.target.ctx).saturatedBy entry) = false := by decide +kernel

theorem witness_ValveStaysLegal : ValveLegal (part id) := by
  unfold ValveLegal ValveShut
  decide +kernel

theorem witness_HouseJobStaysOpen : HouseOpen (part id) := by
  unfold HouseOpen
  decide +kernel

theorem witness_TablesStayInRange : SettingsInRange (part id).settings := by
  refine ⟨⟨fun st => ?_, fun x y h => ?_⟩, fun c => ?_, by decide +kernel, ⟨by decide +kernel, by decide +kernel, fun _ =>
    ⟨rfl, rfl, rfl, rfl⟩⟩, .inl rfl, by decide +kernel, by decide +kernel, by decide +kernel, by decide +kernel,
    by decide +kernel, by decide +kernel⟩
  · fin_cases st <;> exact .inl rfl
  · fin_cases x <;> cases h
  · have hc : (part id).settings.classes[c] = SawClass.initial := by fin_cases c <;> rfl
    rw [hc]
    unfold SawClass.InRange
    decide

end Sys2Proof.Tests
end

section
/-! PROOF. The stock lock: which numbers are cuttable (R119), and the requests that replace the range (R121, R122). -/

namespace Sys2Proof.Machine

/-! ### The cuttability test -/

theorem cuttable_iff (l : Lck) (n : Nat) :
    cuttable l n = true ↔
      l.disabled = true ∨ (((l.low ≤ n ∧ n ≤ l.high) ∧ l.invert = false)
        ∨ (¬(l.low ≤ n ∧ n ≤ l.high) ∧ l.invert = true)) := by
  rw [cuttable, ← Bool.decide_and]
  by_cases hr : l.low ≤ n ∧ n ≤ l.high
  · simp [hr]
  · simp [hr]

/-- R122: with locking enabled the empty range without invert locks every number. -/
theorem cuttable_emptied (l : Lck) (n : Nat) (h : l.disabled = false) : cuttable l.emptied n = false := by
  rw [← Bool.not_eq_true, cuttable_iff]
  simp only [Lck.emptied, h, Bool.false_eq_true, and_true, and_false, or_false, false_or]
  omega

/-! ### Requests that replace the lock state -/

/-- The checks that LOCK RANGE and LOCK ALL share, in their order: disabled, then hard; a request that passes both
replaces the lock state by `l`. -/
def lockGuarded (l : Lck) (status : Status) (e : Ev) : Reply :=
  if e.p.lck.disabled then lockReply e .lockDisabled
  else if e.p.lck.hard then lockReply e .hardLocked
  else lockReply (e.map fun p => p.upLck fun _ => l) status

theorem lockGuarded_disabled (l : Lck) (status : Status) (e : Ev) (hd : e.p.lck.disabled = true) :
    lockGuarded l status e = lockReply e .lockDisabled := by
  simp [lockGuarded, hd]

theorem lockGuarded_hard (l : Lck) (status : Status) (e : Ev) (hd : e.p.lck.disabled = false)
    (hh : e.p.lck.hard = true) : lockGuarded l status e = lockReply e .hardLocked := by
  simp [lockGuarded, hd, hh]

theorem lockGuarded_passes (l : Lck) (status : Status) (e : Ev) (hd : e.p.lck.disabled = false)
    (hh : e.p.lck.hard = false) : lockGuarded l status e = lockReply (e.map fun p => p.upLck fun _ => l) status := by
  simp [lockGuarded, hd, hh]

theorem lockRange_badFlag (low high : Half) (invert : Byte) (e : Ev) (h : flagOf invert = none) :
    lockRange low high invert e = plain e .badValue := by
  simp [lockRange, h]

theorem lockRange_guarded (low high : Half) (invert : Byte) (inv : Bool) (e : Ev) (h : flagOf invert = some inv) :
    lockRange low high invert e =
      lockGuarded { e.p.lck with low := min 511 low.toNat, high := min 511 high.toNat, invert := inv }
        (if low.toNat ≤ 511 ∧ high.toNat ≤ 511 then .done else .clamped) e := by
  have hstatus : (outside 0 511 low.toNat || outside 0 511 high.toNat) = true ↔
      ¬(low.toNat ≤ 511 ∧ high.toNat ≤ 511) := by
    rw [Bool.or_eq_true, outside_iff, outside_iff]
    omega
  rw [← writeStatus_eq _ _ hstatus]
  simp [lockRange, lockGuarded, h, clamp_eq, Ev.map, Part.upLck]

theorem lockAll_guarded (e : Ev) : lockAll e = lockGuarded e.p.lck.emptied .done e := rfl

/-- A request answered with the lock state that it leaves. -/
theorem request_lockReply (r : Request) (s : State) (l : Lck) (status : Status) (h : Quiet s.part) (hr : RoomU 1 s.part)
    (hc : carryOut r ⟨s.part.answering r, []⟩ =
      sendReply r.code r.tag (lockReply ⟨(s.part.answering r).upLck fun _ => l, []⟩ status)) :
    request r s = .next (s.answer { s.part with lck := l } r.code r.tag status (lockBytes l)) :=
  request_effect r s { s.part with lck := l } status (lockBytes l) h hr hc rfl rfl rfl

section Guarded
variable (r : Request) (s : State) (l : Lck) (status : Status) (h : Quiet s.part) (hr : RoomU 1 s.part)
  (hc : carryOut r ⟨s.part.answering r, []⟩ =
    sendReply r.code r.tag (lockGuarded l status ⟨s.part.answering r, []⟩))
include h hr hc

theorem request_lockGuarded_disabled (hd : s.part.lck.disabled = true) :
    request r s = .next (s.answer s.part r.code r.tag .lockDisabled (lockBytes s.part.lck)) :=
  request_lockReply r s s.part.lck .lockDisabled h hr (by rw [hc, lockGuarded_disabled _ _ _ hd]; rfl)

theorem request_lockGuarded_hard (hd : s.part.lck.disabled = false) (hh : s.part.lck.hard = true) :
    request r s = .next (s.answer s.part r.code r.tag .hardLocked (lockBytes s.part.lck)) :=
  request_lockReply r s s.part.lck .hardLocked h hr (by rw [hc, lockGuarded_hard _ _ _ hd hh]; rfl)

theorem request_lockGuarded_passes (hd : s.part.lck.disabled = false) (hh : s.part.lck.hard = false) :
    request r s = .next (s.answer { s.part with lck := l } r.code r.tag status (lockBytes l)) :=
  request_lockReply r s l status h hr (by rw [hc, lockGuarded_passes _ _ _ hd hh]; rfl)

end Guarded

/-! ### The two requests as MGU carries them out -/

theorem carryOut_lockRange (tag : Byte) (low high : Half) (invert : Byte) (e : Ev) :
    carryOut (requestOf tag (.lockRange low high invert)) e = sendReply 0x28 tag (lockRange low high invert e) := rfl

theorem carryOut_lockAll (tag : Byte) (e : Ev) :
    carryOut (requestOf tag .lockAll) e = sendReply 0x29 tag (lockAll e) := rfl

theorem exec_lockRange (tag : Byte) (low high : Half) (invert : Byte) (s : State) :
    exec (.lockRange tag low high invert) s = request (requestOf tag (.lockRange low high invert)) s := rfl

theorem exec_lockAll (tag : Byte) (s : State) : exec (.lockAll tag) s = request (requestOf tag .lockAll) s := rfl

/-- Settles O21, by whether the number is in the range. -/
theorem cuttableIsTheRangeOrItsInverse : Obligations.CuttableIsTheRangeOrItsInverse :=
  fun l n => cuttable_iff l n.val

/-- Settles O22: both requests are the shared checks over the lock state they would set, behind LOCK RANGE's check of
its flag. -/
theorem lockRequestsReplaceTheRange : Obligations.LockRequestsReplaceTheRange := by
  unfold Obligations.LockRequestsReplaceTheRange
  refine ⟨fun tag low high invert s hq hr => ⟨fun hbad => ?_, fun inv hinv => ?_⟩, fun tag s hq hr => ?_⟩
  · rw [exec_lockRange]
    exact request_report _ s .badValue [] hq hr
      (by rw [carryOut_lockRange, lockRange_badFlag _ _ _ _ (flagOf_none _ hbad)]; rfl)
  · have hc := carryOut_lockRange tag low high invert
      ⟨s.part.answering (requestOf tag (.lockRange low high invert)), []⟩
    rw [lockRange_guarded _ _ _ _ _ (flagOf_some _ _ hinv)] at hc
    rw [exec_lockRange]
    refine ⟨request_lockGuarded_disabled _ s _ _ hq hr hc, request_lockGuarded_hard _ s _ _ hq hr hc, ?_⟩
    rintro hd hh _ rfl
    exact request_lockGuarded_passes _ s _ _ hq hr hc hd hh
  · have hc := carryOut_lockAll tag ⟨s.part.answering (requestOf tag .lockAll), []⟩
    rw [lockAll_guarded] at hc
    rw [exec_lockAll]
    refine ⟨request_lockGuarded_disabled _ s _ _ hq hr hc, request_lockGuarded_hard _ s _ _ hq hr hc, ?_⟩
    rintro hd hh _ rfl
    exact ⟨request_lockGuarded_passes _ s _ _ hq hr hc hd hh, fun n => cuttable_emptied _ n.val hd⟩

end Sys2Proof.Machine
end

section
/-! PROOF. The total of a job's context: what rounding half up of each cost means (R180). -/

namespace Sys2Proof

/-- *round half up* of 00 section 6.5 without the division: the quotient `q` has `q - 1/2 ≤ a / b < q + 1/2`, here
multiplied out by `2 * b`. -/
theorem roundHalfUp_bounds (a b : Nat) (hb : 0 < b) :
    2 * b * roundHalfUp a b ≤ 2 * a + b ∧ 2 * a + b < 2 * b * (roundHalfUp a b + 1) :=
  ⟨Nat.mul_div_le (2 * a + b) (2 * b), Nat.lt_mul_div_succ (2 * a + b) (Nat.mul_pos Nat.two_pos hb)⟩

end Sys2Proof

namespace Sys2Proof.Machine

/-- Settles O26: the three costs are the rounded quotients of `contextTotal`, each within the bounds of its divisor. -/
theorem contextTotalRoundsEachTerm : Obligations.ContextTotalRoundsEachTerm := by
  unfold Obligations.ContextTotalRoundsEachTerm
  intro j a
  refine ⟨roundHalfUp (a.water * j.waterRate) 100000, roundHalfUp (a.run * j.runRate) 3600000,
    roundHalfUp (a.energy * j.energyRate) 1000, rfl, ?water, ?run, ?energy⟩
  case water => exact roundHalfUp_bounds _ 100000 (by decide)
  case run => exact roundHalfUp_bounds _ 3600000 (by decide)
  case energy => exact roundHalfUp_bounds _ 1000 (by decide)

end Sys2Proof.Machine
end

section
/-! PROOF. What a step can do to the tables, the valve and the house job, said once: every step is a run of the changes
listed in `Change`. The three invariants of tier 3 are then small facts about one change. -/

namespace Sys2Proof.Machine

/-! ### The changes -/

/-- The valve and the number of waiting MAKEUP OPENs as the valve rule leaves them (R144, R145): they stay, where nothing
that is open or about to open has to be shut; a CLOSED valve opens or its MAKEUP OPEN begins to wait; or the valve is
shut, a waiting MAKEUP OPEN being withdrawn before an open valve is closed. -/
inductive ValveRuled (shut : Prop) (valve : Valve) (opens : Nat) : Valve → Nat → Prop
  | stays : ¬((valve = .opened ∨ 0 < opens) ∧ shut) → ValveRuled shut valve opens valve opens
  | opensNow : ¬shut → opens = 0 → ValveRuled shut valve opens .opened 0
  | opensLater : ¬shut → valve = .closed → opens = 0 → ValveRuled shut valve opens .closed 1
  | withdraws : 0 < opens → ValveRuled shut valve opens valve 0
  | closes : ValveRuled shut valve opens .closed 0

/-- One change of the tables, the valve and the house job. -/
inductive Change (k : Kept) : Kept → Prop
  /-- MAP WRITE (R21): a legal node, which no other mapped station has when the entry is mapped. -/
  | map (st : StationNo) (new : MapEntry) :
      nodeOk new.node = true →
      (new.mapped = true → ∀ x : StationNo, x ≠ st → k.settings.map[x].mapped = true → k.settings.map[x].node ≠ new.node) →
      Change k { k with settings := { k.settings with map := upd k.settings.map st fun _ => new } }
  /-- CLASS WRITE (R63). -/
  | cls (c : ClassNo) (f : ClassFields) :
      Change k { k with settings := { k.settings with classes := upd k.settings.classes c fun _ => (classOf f).1 } }
  /-- PIPE WRITE (R89). -/
  | pipe (percent grace : Half) (stop : Byte) :
      Change k { k with settings := { k.settings with pipe := (pipeOf percent grace stop).1 } }
  /-- The lock's requests, its key and its resets (R118 to R126). -/
  | lock (l : Lck) : (LockLegal k.settings.lck → LockLegal l) →
      Change k { k with settings := { k.settings with lck := l } }
  /-- POSTING WRITE (R159). -/
  | posting (period : Byte) (limit : Half) :
      Change k { k with settings :=
        { k.settings with period := (postingOf period limit).1.1, limit := (postingOf period limit).1.2 } }
  /-- RATES WRITE (R179). -/
  | rates (water run : Word) (energy : Half) :
      Change k { k with settings :=
        { k.settings with
          waterRate := (ratesOf water run energy).1.1
          runRate := (ratesOf water run energy).1.2.1
          energyRate := (ratesOf water run energy).1.2.2 } }
  /-- SUMMARY WRITE (R191). -/
  | summary (period : Byte) :
      Change k { k with settings := { k.settings with summaryPeriod := clamp 0 100 period.toNat } }
  /-- The pins and the start cause. -/
  | pins (inReset : Bool) (yardkey : Level) (cause : StartCause) :
      Change k { k with settings := { k.settings with inReset := inReset, yardkey := yardkey, cause := cause } }
  /-- New water constants, allowance and freshness, and the valve rule behind them (R129, R132, R135, R146). -/
  | water (c : WaterConsts) (allowance : Nat) (freshness : Freshness) (valve : Valve) (opens : Nat) :
      (c = k.settings.consts ∨ c.InRange) →
      (c.plantNode = 0 → freshness = .stale ∨ freshness = k.freshness ∧ c.plantNode = k.settings.consts.plantNode) →
      ValveRuled (allowance = 0 ∨ freshness = .stale) k.valve k.opens valve opens →
      Change k { k with
        settings := { k.settings with consts := c }
        valve := valve, allowance := allowance, freshness := freshness, opens := opens }
  /-- A waiting MAKEUP OPEN enters port D's queue and the valve is OPEN (R145). -/
  | opened : 0 < k.opens → Change k { k with valve := .opened, opens := k.opens - 1 }
  /-- A MAKEUP OPEN that waits at port U, where none belongs, enters. -/
  | strayed : 0 < k.stray → Change k { k with valve := .opened, stray := k.stray - 1 }
  /-- RESETn asserted: the tank is STALE, the valve CLOSED, and nothing waits (R18, R148). -/
  | reset : Change k { k with valve := .closed, freshness := .stale, opens := 0, stray := 0 }
  /-- POWER_UP. -/
  | powerUp (locken yardkey : Level) : Change k (Part.powerUp locken yardkey).kept

/-- `q` follows from `p` by changes of `Change`. -/
def Leads (p q : Part) : Prop := Relation.ReflTransGen Change p.kept q.kept

theorem Leads.of_kept {p q : Part} (h : q.kept = p.kept) : Leads p q := by
  rw [Leads, h]

theorem Leads.of_change {p q : Part} (h : Change p.kept q.kept) : Leads p q := Relation.ReflTransGen.single h

theorem Leads.refl (p : Part) : Leads p p := Relation.ReflTransGen.refl

theorem Leads.trans {p q r : Part} (h1 : Leads p q) (h2 : Leads q r) : Leads p r := Relation.ReflTransGen.trans h1 h2

theorem Leads.foldl {α : Type} (f : Part → α → Part) (h : ∀ p a, Leads p (f p a)) (l : List α) (p : Part) :
    Leads p (l.foldl f p) := by
  induction l generalizing p with
  | nil => exact .refl p
  | cons a l ih => exact (h p a).trans (ih _)

/-! ### Waiting lines -/

theorem eligible_subset (seen ws : List Waiter) : eligible seen ws ⊆ ws := by
  induction ws generalizing seen with
  | nil => exact List.Subset.refl _
  | cons w rest ih =>
    simp only [eligible]
    split
    · exact List.subset_cons_of_subset _ (ih _)
    · exact List.cons_subset_cons _ (ih _)

theorem candidate_waits {q : PortState} {w : Waiter} (h : w ∈ candidates q) : ∃ y ∈ q.waiting, y.who = w := by
  have hw := eligible_subset _ _ h
  unfold firstGroup at hw
  split at hw
  · cases hw
  · rename_i w0 rest hq
    obtain ⟨y, hy, rfl⟩ := List.mem_map.mp hw
    exact ⟨y, (List.takeWhile_prefix _).subset hy, rfl⟩

/-- Taking one waiting frame out of a line lowers the count of its kind by one. -/
theorem countP_eraseP_who (what : Waiter → Bool) (w : Waiter) (l : List Waiting) (h : ∃ y ∈ l, y.who = w) :
    (l.eraseP fun y => decide (y.who = w)).countP (fun y => what y.who) =
      l.countP (fun y => what y.who) - if what w then 1 else 0 := by
  induction l with
  | nil => obtain ⟨y, hy, -⟩ := h; cases hy
  | cons a l ih =>
    by_cases ha : a.who = w
    · subst ha
      cases hw : what a.who <;> simp [hw]
    · obtain ⟨y, hy, hyw⟩ := h
      have hyl : y ∈ l := (List.mem_cons.mp hy).resolve_left fun e => ha (e ▸ hyw)
      have hpos : what w = true → 0 < l.countP fun y => what y.who := fun hw =>
        List.countP_pos_iff.mpr ⟨y, hyl, by rw [hyw, hw]⟩
      rw [List.eraseP_cons_of_neg (by simpa using ha), List.countP_cons, List.countP_cons, ih ⟨y, hyl, hyw⟩]
      cases hw : what w
      · simp
      · have := hpos hw
        simp only [if_true]
        omega

theorem takeWaiter_kept (x : Port) (w : Waiter) (p : Part) (hv : Waiter.isValve true w = false) :
    (takeWaiter x w p).kept = p.kept := by
  refine upPort_kept p x _ fun q => ?_
  by_cases h : ∃ y ∈ q.waiting, y.who = w
  · simp only [PortState.waits]
    rw [countP_eraseP_who _ _ _ h]
    simp [hv]
  · have : q.waiting.eraseP (fun y => decide (y.who = w)) = q.waiting :=
      List.eraseP_of_forall_not fun y hy => by simpa using fun e => h ⟨y, hy, e⟩
    simp only [this]

/-- A waiting frame enters. -/
theorem enter_waiter_leads (x : Port) (w : Waiter) (e : Ev) (h : ∃ y ∈ (e.p.port x).waiting, y.who = w) :
    Leads e.p (enter w (e.map (takeWaiter x w))).p := by
  by_cases hv : Waiter.isValve true w = true
  · obtain ⟨f, rfl⟩ : ∃ f, w = .valve true f := by
      cases w with
      | valve opens f => cases opens with
        | true => exact ⟨f, rfl⟩
        | false => cases hv
      | _ => cases hv
    have hcount := countP_eraseP_who (Waiter.isValve true) (.valve true f) _ h
    have hpos : 0 < (e.p.port x).waits (Waiter.isValve true) := by
      obtain ⟨y, hy, hw⟩ := h
      exact List.countP_pos_iff.mpr ⟨y, hy, by rw [hw]; rfl⟩
    cases x with
    | U =>
      have e1 : (enter (.valve true f) (e.map (takeWaiter .U (.valve true f)))).p.kept =
          { e.p.kept with valve := .opened, stray := e.p.kept.stray - 1 } := by
        simp only [Part.kept, Kept.mk.injEq]
        exact ⟨rfl, rfl, rfl, rfl, rfl, hcount, rfl⟩
      exact .of_change (e1 ▸ Change.strayed hpos)
    | D =>
      have e1 : (enter (.valve true f) (e.map (takeWaiter .D (.valve true f)))).p.kept =
          { e.p.kept with valve := .opened, opens := e.p.kept.opens - 1 } := by
        simp only [Part.kept, Kept.mk.injEq]
        exact ⟨rfl, rfl, rfl, rfl, hcount, rfl, rfl⟩
      exact .of_change (e1 ▸ Change.opened hpos)
  · rw [Bool.not_eq_true] at hv
    exact .of_kept ((enter_kept w _ hv).trans (takeWaiter_kept x w _ hv))

theorem admitOne_leads (x : Port) (e : Ev) : Leads e.p (admitOne x e).p := by
  unfold admitOne
  split
  · exact .refl _
  next w hc => exact enter_waiter_leads x w e (candidate_waits (hc ▸ List.mem_singleton_self w))
  next w v ws hc =>
    have hmem : ∀ n, (w :: v :: ws).getD (n % (w :: v :: ws).length) w ∈ candidates (e.p.port x) := by
      intro n
      rw [hc, List.getD_eq_getElem _ _ (Nat.mod_lt _ (by simp))]
      exact List.getElem_mem _
    have h1 := enter_waiter_leads x _ (e.map fun p => { p with picks := p.picks + 1 }) (by
      simpa using candidate_waits (by cases x <;> exact hmem (Config.freePick e.p.picks)))
    exact h1

/-! ### The valve rule and the tank (R129, R132, R135, R144 to R146) -/

/-- What the valve rule leaves beside what it does to the valve and to a waiting MAKEUP OPEN. -/
theorem valveRule_ruled (node : Nat) (e : Ev) : ∃ v n,
    (valveRule node e).p.kept = { e.p.kept with valve := v, opens := n }
    ∧ ValveRuled (e.p.wbu.allowance = 0 ∨ e.p.wbu.freshness = .stale) e.p.kept.valve e.p.kept.opens v n := by
  have hwaits : e.p.portD.anyWaits (Waiter.isValve true) = true ↔ 0 < e.p.kept.opens := by
    simp [PortState.anyWaits, Part.kept, PortState.waits, List.countP_pos_iff]
  unfold valveRule
  split
  case isTrue ho =>
    simp only [opensValve, Bool.and_eq_true, decide_eq_true_eq, Bool.not_eq_true'] at ho
    obtain ⟨⟨⟨⟨-, hlive⟩, hallow⟩, hclosed⟩, hnone⟩ := ho
    have hshut : ¬(e.p.wbu.allowance = 0 ∨ e.p.wbu.freshness = .stale) := by
      rw [hlive]; rintro (h | h)
      · omega
      · cases h
    have hzero : e.p.kept.opens = 0 := by
      have := hwaits.not.mp (by rw [hnone]; decide)
      omega
    split
    · refine ⟨.opened, 0, ?_, .opensNow hshut hzero⟩
      have hk := discard_kept .D (Waiter.isValve false) e.p (by
        intro w hw; cases w with
        | valve opens f => cases opens <;> first | rfl | cases hw
        | _ => rfl)
      rw [← hzero]
      exact congrArg (fun k : Kept => { k with valve := .opened }) hk
    · unfold offer
      split
      · refine ⟨.opened, 0, ?_, .opensNow hshut hzero⟩
        rw [← hzero]; rfl
      · refine ⟨.closed, 1, ?_, .opensLater hshut hclosed hzero⟩
        have hc : (join (.valve true (toPlant e.p.wbu.consts.plantNode true)) e.p).kept =
            { e.p.kept with opens := e.p.kept.opens + 1 } := by
          simp only [Part.kept, join, Part.upPort, Waiter.port, PortState.waits, List.countP_append]
          rfl
        simp only [Ev.map_p, hc, hzero]
        simp only [Part.kept, hclosed]
  case isFalse ho =>
    split
    case isTrue hcl =>
      split
      case isTrue hw =>
        refine ⟨e.p.kept.valve, 0, ?_, .withdraws (hwaits.mp hw)⟩
        have hc : (e.p.portD.waiting.filter fun w => !Waiter.isValve true w.who).countP
            (fun w => Waiter.isValve true w.who) = 0 := by
          simp [List.countP_eq_zero]
        simp only [Part.kept, Ev.map_p, discard, Part.upPort, PortState.waits, hc]
        rfl
      case isFalse hw =>
        refine ⟨.closed, 0, ?_, .closes⟩
        rw [offer_kept _ _ rfl]
        have : e.p.kept.opens = 0 := by have := hwaits.not.mp hw; omega
        rw [← this]; rfl
    case isFalse hcl =>
      refine ⟨e.p.kept.valve, e.p.kept.opens, rfl, .stays fun ⟨h1, h2⟩ => hcl ?_⟩
      simp only [closesValve, Bool.and_eq_true, Bool.or_eq_true, decide_eq_true_eq]
      exact ⟨h1.imp id hwaits.mpr, h2.elim (fun h => .inl (.inr h)) .inr⟩

/-- New constants, allowance and freshness, and the valve rule behind them. -/
theorem valveRule_leads (node : Nat) (p : Part) (e : Ev) (c : WaterConsts) (a : Nat) (f : Freshness)
    (he : e.p.kept = { p.kept with settings := { p.kept.settings with consts := c }, allowance := a, freshness := f })
    (hc : c = p.wbu.consts ∨ c.InRange)
    (hf : c.plantNode = 0 → f = .stale ∨ f = p.wbu.freshness ∧ c.plantNode = p.wbu.consts.plantNode) :
    Leads p (valveRule node e).p := by
  obtain ⟨v, n, hk, hr⟩ := valveRule_ruled node e
  have hallow : e.p.wbu.allowance = a := congrArg Kept.allowance he
  have hfresh : e.p.wbu.freshness = f := congrArg Kept.freshness he
  rw [hallow, hfresh, he] at hr
  rw [he] at hk
  exact .of_change (hk ▸ Change.water c a f v n hc hf hr)

@[simp] theorem setAllowance_kept (n : Nat) (e : Ev) :
    (setAllowance n e).p.kept = { e.p.kept with allowance := n } := by
  unfold setAllowance
  simp only
  split
  · rw [raise_kept]; rfl
  · rfl

/-- R132: a sample of the plant node. -/
theorem takeSample_leads (level turbidity makeup : Nat) (e : Ev) (h : e.p.wbu.consts.plantNode ≠ 0) :
    Leads e.p (takeSample level turbidity makeup e).p := by
  refine .trans ?_ (.of_kept (grantScan_kept _))
  refine valveRule_leads _ _ _ e.p.wbu.consts (e.p.wbu.allowance - makeup) .live ?_ (.inl rfl) fun h0 => absurd h0 h
  rw [holdRule_kept, setAllowance_kept]
  rfl

theorem reachesWbu_leads (src : Byte) (act : Ev → Ev) (e : Ev)
    (h : e.p.wbu.consts.plantNode ≠ 0 → Leads e.p (act e).p) : Leads e.p (reachesWbu src act e).p := by
  unfold reachesWbu
  split
  · exact h ((fromPlant_iff _ _).mp ‹_›).1
  · exact .refl _

/-- R135. -/
theorem sampleExpired_leads (e : Ev) : Leads e.p (sampleExpired e).p := by
  unfold sampleExpired
  split
  · refine valveRule_leads _ _ _ e.p.wbu.consts e.p.wbu.allowance .stale ?_ (.inl rfl) fun _ => .inl rfl
    rw [raise_kept]; rfl
  · exact .refl _
  · exact .refl _

/-- R146. -/
theorem newDayBegins_leads (e : Ev) : Leads e.p (newDayBegins e).p := by
  refine .trans ?_ (.of_kept (grantScan_kept _))
  refine valveRule_leads _ _ _ e.p.wbu.consts e.p.wbu.consts.dailyAllowance e.p.wbu.freshness ?_ (.inl rfl)
    fun _ => .inr ⟨rfl, rfl⟩
  rw [setAllowance_kept]
  rfl

theorem clamp_bounds (lo hi x : Nat) (h : lo ≤ hi) : lo ≤ clamp lo hi x ∧ clamp lo hi x ≤ hi := by
  rw [clamp_eq _ _ _ h]; omega

theorem nodeOk_iff (n : Nat) : nodeOk n = true ↔ n = 0 ∨ (2 ≤ n ∧ n ≤ 62) := by
  simp [nodeOk]

/-- R128, R129: the constants of a WATER WRITE that passes its checks are in their ranges. -/
theorem waterOf_inRange (f : WaterFields) (hn : nodeOk f.plantNode.toNat = true) (hm : marksOk (waterOf f).1 = true) :
    (waterOf f).1.InRange := by
  simp only [marksOk, Bool.and_eq_true, decide_eq_true_eq] at hm
  obtain ⟨⟨hlow, hon⟩, hoff⟩ := hm
  exact .inr ⟨hlow, hon, hoff, (clamp_bounds 0 4000000 _ (by decide)).2, (clamp_bounds 0 200000 _ (by decide)).2,
    clamp_bounds 1 1000 _ (by decide), clamp_bounds 1 60 _ (by decide), (clamp_bounds 0 4000000 _ (by decide)).2,
    (nodeOk_iff _).mp hn⟩

/-- R129. -/
theorem waterWritten_leads (c : WaterConsts) (hc : c.InRange) (e : Ev) : Leads e.p (waterWritten c e).p := by
  refine .trans ?_ (.of_kept (grantScan_kept _))
  have hretabled : ∀ u : Wbu, (retabled c u).consts = c ∧ (retabled c u).valve = u.valve
      ∧ (retabled c u).allowance = u.allowance ∧ (retabled c u).freshness = u.freshness := by
    intro u; unfold retabled; simp only; split <;> exact ⟨rfl, rfl, rfl, rfl⟩
  obtain ⟨h1, h2, h3, h4⟩ := hretabled e.p.wbu
  have he1 : (e.p.upWbu (retabled c)).kept =
      { e.p.kept with settings := { e.p.kept.settings with consts := c } } := by
    simp only [Part.kept, Part.settings, Part.upWbu, h1, h2, h3, h4]
  by_cases hp : c.plantNode = e.p.wbu.consts.plantNode
  · refine valveRule_leads _ _ _ c e.p.wbu.allowance e.p.wbu.freshness ?_ (.inr hc) fun _ => .inr ⟨rfl, hp⟩
    rw [holdRule_kept, if_pos hp]
    exact he1
  · have he3 : ((e.p.upWbu (retabled c)).upWbu fun u => { u with freshness := .stale, sampleTimer := .stopped }).kept =
        { e.p.kept with settings := { e.p.kept.settings with consts := c }, freshness := .stale } :=
      congrArg (fun k : Kept => { k with freshness := .stale }) he1
    refine valveRule_leads _ _ _ c e.p.wbu.allowance .stale ?_ (.inr hc) fun _ => .inl rfl
    rw [holdRule_kept, if_neg hp]
    split
    · rw [raise_kept]; exact he3
    · exact he3

end Sys2Proof.Machine
end

section
/-! PROOF. Every command leads from its part to the next by the changes of `Change`: the requests by the table each
writes, the events of the line and of the timers, and the resets; then the three invariants. -/

namespace Sys2Proof.Machine

/-! ### Requests -/

theorem mapWrite_leads (station node cls enabled : Byte) (e : Ev) :
    Leads e.p (mapWrite station node cls enabled e).e.p := by
  unfold mapWrite
  split
  case h_2 => exact .refl _
  next st c en _ _ _ =>
    simp only
    split
    · exact .refl _
    next hnode =>
      split
      · exact .refl _
      next _ =>
        split
        · exact .refl _
        next htaken =>
          have hk : (writeMap st ⟨node.toNat, c, en⟩ e.p).kept =
              { e.p.kept with settings :=
                { e.p.kept.settings with map := upd e.p.kept.settings.map st fun _ => ⟨node.toNat, c, en⟩ } } := by
            unfold writeMap; simp only; split <;> rfl
          refine .of_change (hk ▸ Change.map st ⟨node.toNat, c, en⟩ (by simpa using hnode) fun hm x hx hxm hxn => ?_)
          refine htaken ?_
          simp only [hm, Bool.true_and, nodeTaken, List.any_eq_true, Bool.and_eq_true, decide_eq_true_eq]
          exact ⟨x, mem_allStations x, ⟨hx, hxm⟩, hxn⟩

theorem releaseStation_leads (station : Byte) (e : Ev) : Leads e.p (releaseStation station e).e.p := by
  refine .of_kept ?_
  unfold releaseStation
  split
  · rfl
  · split
    · rfl
    · split <;> rfl

theorem serviceStation_leads (station : Byte) (e : Ev) : Leads e.p (serviceStation station e).e.p := by
  refine .of_kept ?_
  unfold serviceStation
  split
  · rfl
  · split
    · rfl
    · split <;> rfl

theorem classWrite_leads (cls : Byte) (f : ClassFields) (e : Ev) : Leads e.p (classWrite cls f e).e.p := by
  unfold classWrite
  split
  next c _ => exact .of_change (Change.cls c f)
  · exact .refl _

theorem slabWrite_leads (f : SlabFields) (e : Ev) : Leads e.p (slabWrite f e).e.p := by
  refine .of_kept ?_
  unfold slabWrite
  split
  · split
    · rfl
    · simp only; split <;> rfl
  · rfl

theorem slabRemove_leads (number : Half) (e : Ev) : Leads e.p (slabRemove number e).e.p := by
  refine .of_kept ?_
  unfold slabRemove
  split
  · rfl
  · split
    · rfl
    · split
      · rfl
      · split <;> rfl

theorem lock_leads (p : Part) (f : Lck → Lck) (h : LockLegal p.lck → LockLegal (f p.lck)) : Leads p (p.upLck f) :=
  .of_change (Change.lock (f p.lck) h)

theorem emptied_legal (l : Lck) (h : l.disabled = true → l.hard = false) : LockLegal l.emptied :=
  ⟨by simp [Lck.emptied], by simp [Lck.emptied], fun hd => ⟨rfl, rfl, rfl, h hd⟩⟩

theorem lockRange_leads (low high : Half) (invert : Byte) (e : Ev) : Leads e.p (lockRange low high invert e).e.p := by
  unfold lockRange
  split
  · exact .refl _
  · split
    · exact .refl _
    next hd =>
      split
      · exact .refl _
      · refine lock_leads _ _ fun _ => ⟨(clamp_bounds 0 511 _ (by decide)).2, (clamp_bounds 0 511 _ (by decide)).2, ?_⟩
        exact fun h => absurd h hd

theorem lockAll_leads (e : Ev) : Leads e.p (lockAll e).e.p := by
  unfold lockAll
  split
  · exact .refl _
  next hd =>
    split
    · exact .refl _
    · exact lock_leads _ _ fun _ => emptied_legal _ fun h => absurd h hd

theorem lockHard_leads (e : Ev) : Leads e.p (lockHard e).e.p := by
  unfold lockHard
  split
  · exact .refl _
  next hd => exact lock_leads _ _ fun ⟨h1, h2, _⟩ => ⟨h1, h2, fun h => absurd h hd⟩

theorem waterWrite_leads (f : WaterFields) (e : Ev) : Leads e.p (waterWrite f e).e.p := by
  unfold waterWrite
  simp only
  split
  · exact .refl _
  next hn =>
    split
    · exact .refl _
    next hm => exact waterWritten_leads _ (waterOf_inRange f (by simpa using hn) (by simpa using hm)) e

theorem auditThaw_leads (e : Ev) : Leads e.p (auditThaw e).e.p := by
  unfold auditThaw
  split
  · exact .of_kept (thawAndFlush_kept e)
  · exact .refl _

/-- No request touches the house job. -/
theorem upJob_leads (p : Part) (n : JobNo) (f : Job → Job) (h : n ≠ 0) : Leads p (p.upJob n f) :=
  .of_kept (upJob_kept p n f fun h0 => absurd h0 h)

theorem jobOpen_leads (job : Byte) (reference : Word) (e : Ev) : Leads e.p (jobOpen job reference e).e.p := by
  unfold jobOpen
  split
  · exact .refl _
  · split
    · exact .refl _
    next hn =>
      split
      · exact .refl _
      · split
        · exact upJob_leads _ _ _ hn
        · exact .refl _

theorem jobClose_leads (job : Byte) (e : Ev) : Leads e.p (jobClose job e).e.p := by
  unfold jobClose
  split
  · exact .refl _
  · split
    · exact .refl _
    next hn =>
      split
      · exact upJob_leads _ _ _ hn
      · exact .refl _

theorem jobDiscard_leads (job : Byte) (e : Ev) : Leads e.p (jobDiscard job e).e.p := by
  unfold jobDiscard
  split
  · exact .refl _
  · split
    · exact .refl _
    next hn =>
      split
      · exact .refl _
      · split
        · exact upJob_leads _ _ _ hn
        · exact .refl _

theorem summaryWrite_leads (period : Byte) (e : Ev) : Leads e.p (summaryWrite period e).e.p := by
  have h : ∀ n u, (setPeriod n u).period = n := by
    intro n u; unfold setPeriod; simp only; split
    · rfl
    · split <;> rfl
  have hk : (e.p.upNtu (setPeriod (clamp 0 100 period.toNat))).kept =
      { e.p.kept with settings := { e.p.kept.settings with summaryPeriod := clamp 0 100 period.toNat } } := by
    simp only [Part.kept, Part.settings, Part.upNtu, h]
  exact .of_change (hk ▸ Change.summary period)

theorem noticeRead_leads (e : Ev) : Leads e.p (noticeRead e).e.p := .of_kept (upNtu_kept _ _ fun _ => rfl)

theorem sendReply_leads {p : Part} (code tag : Byte) (x : Reply) (h : Leads p x.e.p) : Leads p (sendReply code tag x).p :=
  h.trans (.of_kept (sendReply_kept code tag x))

theorem mapRead_e (station : Byte) (e : Ev) : (mapRead station e).e = e := by unfold mapRead; split <;> rfl

theorem classRead_e (cls : Byte) (e : Ev) : (classRead cls e).e = e := by unfold classRead; split <;> rfl

theorem slabRead_e (number : Half) (e : Ev) : (slabRead number e).e = e := by
  unfold slabRead; split
  · rfl
  · split <;> rfl

theorem slabScan_e (start : Half) (e : Ev) : (slabScan start e).e = e := by
  unfold slabScan; split
  · rfl
  · split
    · rfl
    · split <;> rfl

theorem jobReadAnswer_leads (code tag job : Byte) (e : Ev) : Leads e.p (jobReadAnswer code tag job e).p := by
  unfold jobReadAnswer
  split
  · exact sendReply_leads _ _ _ (.refl _)
  · simp only
    split
    · exact sendReply_leads _ _ _ (.refl _)
    · exact .of_kept (offer_kept _ _ rfl)

theorem auditFreezeAnswer_leads (code tag : Byte) (e : Ev) : Leads e.p (auditFreezeAnswer code tag e).p := by
  unfold auditFreezeAnswer
  split
  · exact sendReply_leads _ _ _ (.refl _)
  · exact .of_kept rfl

/-- What carrying out a request does (R15 to R24, R63, R89, R105 to R124, R129, R146, R159 to R162, R173 to R191). -/
theorem carryOut_leads (r : Request) (e : Ev) : Leads e.p (carryOut r e).p := by
  obtain ⟨code, tag, body⟩ := r
  cases body with
  | lineReset => exact .of_kept (beginLineReset_kept e)
  | auditFreeze => exact auditFreezeAnswer_leads code tag e
  | jobRead job => exact jobReadAnswer_leads code tag job e
  | mapRead station => exact sendReply_leads _ _ _ (by rw [mapRead_e]; exact .refl _)
  | mapWrite station node cls enabled => exact sendReply_leads _ _ _ (mapWrite_leads station node cls enabled e)
  | releaseStation station => exact sendReply_leads _ _ _ (releaseStation_leads station e)
  | serviceStation station => exact sendReply_leads _ _ _ (serviceStation_leads station e)
  | classRead cls => exact sendReply_leads _ _ _ (by rw [classRead_e]; exact .refl _)
  | classWrite cls entry => exact sendReply_leads _ _ _ (classWrite_leads cls entry e)
  | pipeWrite percent grace stop => exact sendReply_leads _ _ _ (.of_change (Change.pipe percent grace stop))
  | slabWrite fields => exact sendReply_leads _ _ _ (slabWrite_leads fields e)
  | slabRemove number => exact sendReply_leads _ _ _ (slabRemove_leads number e)
  | slabRead number => exact sendReply_leads _ _ _ (by rw [slabRead_e]; exact .refl _)
  | slabScan start => exact sendReply_leads _ _ _ (by rw [slabScan_e]; exact .refl _)
  | lockRange low high invert => exact sendReply_leads _ _ _ (lockRange_leads low high invert e)
  | lockAll => exact sendReply_leads _ _ _ (lockAll_leads e)
  | lockHard => exact sendReply_leads _ _ _ (lockHard_leads e)
  | waterWrite fields => exact sendReply_leads _ _ _ (waterWrite_leads fields e)
  | newDay => exact sendReply_leads _ _ _ (newDayBegins_leads e)
  | postingWrite period limit => exact sendReply_leads _ _ _ (.of_change (Change.posting period limit))
  | auditThaw => exact sendReply_leads _ _ _ (auditThaw_leads e)
  | jobOpen job reference => exact sendReply_leads _ _ _ (jobOpen_leads job reference e)
  | jobClose job => exact sendReply_leads _ _ _ (jobClose_leads job e)
  | jobDiscard job => exact sendReply_leads _ _ _ (jobDiscard_leads job e)
  | ratesWrite water run energy => exact sendReply_leads _ _ _ (.of_change (Change.rates water run energy))
  | noticeRead => exact sendReply_leads _ _ _ (noticeRead_leads e)
  | ackAttention => exact sendReply_leads _ _ _ (.of_kept (ackAttention_kept e))
  | summaryWrite period => exact sendReply_leads _ _ _ (summaryWrite_leads period e)
  | malformed | identify | pipeRead | stockCount | lockQuery | waterRead | waterState | postingRead | ratesRead
  | summaryRead => exact sendReply_leads _ _ _ (.refl _)

/-! ### Events -/

theorem takeRequest_leads (e e2 : Ev) (h : takeRequest e = some e2) : Leads e.p e2.p := by
  unfold takeRequest at h
  split at h
  · cases h
    rename_i r rest _ _
    exact Leads.trans (.of_kept rfl) (carryOut_leads r
      (e.map fun p => p.upMgu fun m =>
        { m with queue := rest, inProgress := some { code := r.code, tag := r.tag, phase := .answering } }))
  · cases h

theorem finish_leads (n : Nat) (e : Ev) : Leads e.p (finish n e).p := by
  induction n generalizing e with
  | zero => exact .refl _
  | succ n ih =>
    have h1 : Leads e.p (lineResetCheck (freezeCheck (settle Config.eventFuel e))).p := .of_kept (by simp)
    simp only [finish]
    split
    next e2 h2 => exact (h1.trans (takeRequest_leads _ _ h2)).trans (ih e2)
    · exact h1

theorem event_leads (f : Ev → Ev) (p : Part) (h : Leads p (f ⟨p, []⟩).p) : Leads p (event f p) :=
  (h.trans (finish_leads _ _)).trans (.of_kept (closeGroups_kept _))

theorem handRequest_leads (r : Request) (e : Ev) : Leads e.p (handRequest r e).p := by
  refine .of_kept ?_
  unfold handRequest
  split
  · rfl
  · unfold busyAnswer
    split
    · exact countDrop_kept _ _
    · exact offer_kept _ _ rfl

theorem stationCommand_kept (st : StationNo) (code : Byte) (e : Ev) : (stationCommand st code e).p.kept = e.p.kept := by
  unfold stationCommand
  split
  · exact commanded_kept _ _ _ _ _ (holdCommand_kept st)
  · exact commanded_kept _ _ _ _ _ (resumeCommand_kept st)
  · exact commanded_kept _ _ _ _ _ (abortCommand_kept st)
  · exact commanded_kept _ _ _ _ _ (flushStation_kept st _ _)
  · exact commanded_kept _ _ _ _ _ fun _ => rfl

theorem panelFrameTaken_kept (st : StationNo) (kind : Byte) (e : Ev) : (panelFrameTaken st kind e).p.kept = e.p.kept := by
  unfold panelFrameTaken
  split <;> simp

theorem forward_leads {p : Part} (x : Port) (f : Frame) (e : Ev) (h : Leads p e.p) : Leads p (forward x f e).p :=
  h.trans (.of_kept (forward_kept x f e))

/-- The hand-over of a received frame to its owner (R7). -/
theorem handOne_leads (x : Port) (r : Received) (e : Ev) : Leads e.p (handOne x r e).p := by
  unfold handOne
  split
  · split
    · exact .of_kept (takeOrder_kept _ _ _)
    · exact .refl _
  · split
    · exact .of_kept (stationCommand_kept _ _ _)
    · exact .refl _
  · exact handRequest_leads _ _
  · exact .of_kept (raise_kept _ _ _ _)
  · split
    · exact .of_kept (doneReported_kept _ _ _ _ _)
    · exact .refl _
  · refine forward_leads _ _ _ ?_
    split
    · exact .of_kept (passReported_kept _ _ _ _)
    · exact .refl _
  · refine forward_leads _ _ _ ?_
    split
    · exact .of_kept (takeUsage_kept _ _ _ _ _)
    · exact .refl _
  · exact forward_leads _ _ _ (.of_kept (panelFrameTaken_kept _ _ _))
  · refine forward_leads _ _ _ ?_
    split
    · exact reachesWbu_leads _ _ _ (takeSample_leads _ _ _ _)
    · exact .refl _
  · exact forward_leads _ _ _ (.refl _)

theorem handOver_leads (x : Port) (n : Nat) (p : Part) : Leads p (handOver x n p) := by
  induction n generalizing p with
  | zero => exact .refl _
  | succ n ih =>
    simp only [handOver]
    split
    · exact .refl _
    next r rest _ =>
      have hkept := upPort_kept p x (fun q => { q with received := rest }) fun _ => rfl
      exact ((Leads.of_kept hkept).trans (event_leads _ _ (handOne_leads x r ⟨_, []⟩))).trans (ih _)

theorem handAll_leads (x : Port) (p : Part) : Leads p (handAll x p) := handOver_leads _ _ _

/-- An event behind the hand-over of the frames a port has kept. -/
theorem handed_leads (x : Port) (f : Ev → Ev) (p : Part) (h : ∀ e, Leads e.p (f e).p) :
    Leads p (event f (handAll x p)) :=
  (handAll_leads x p).trans (event_leads _ _ (h ⟨handAll x p, []⟩))

theorem setReceiver_leads (x : Port) (r : Receiver) (p : Part) : Leads p (setReceiver x r p) :=
  .of_kept (upPort_kept _ _ _ fun _ => rfl)

theorem countDrop_leads (x : Port) (p : Part) : Leads p (countDrop x p) := .of_kept (countDrop_kept x p)

theorem pairIdle_leads (x : Port) (p : Part) : Leads p (pairIdle x p) := by
  unfold pairIdle
  split
  · exact setReceiver_leads _ _ _
  · exact .refl _
  · exact (countDrop_leads _ _).trans (setReceiver_leads _ _ _)

theorem delimiterTaken_leads (x : Port) (p : Part) : Leads p (delimiterTaken x p) := by
  unfold delimiterTaken
  split
  · exact setReceiver_leads _ _ _
  · exact .refl _

theorem badStart_leads (x : Port) (byte : Byte) (p : Part) : Leads p (badStart x byte p) := by
  unfold badStart
  split
  · exact (countDrop_leads _ _).trans (setReceiver_leads _ _ _)
  · exact .refl _

theorem badLength_leads (x : Port) (length : Byte) (p : Part) : Leads p (badLength x length p) := by
  unfold badLength
  split
  · exact (countDrop_leads _ _).trans (setReceiver_leads _ _ _)
  · exact .refl _

theorem truncated_leads (x : Port) (p : Part) : Leads p (truncated x p) := by
  unfold truncated
  split
  · exact (countDrop_leads _ _).trans (setReceiver_leads _ _ _)
  · exact .refl _

theorem frameCompleted_leads (x : Port) (f : Frame) (crc : Half) (handed : Bool) (p : Part) :
    Leads p (frameCompleted x f crc handed p) := by
  have h1 := setReceiver_leads x .ready p
  unfold frameCompleted
  simp only
  split
  · exact h1.trans (countDrop_leads _ _)
  · split
    · exact h1.trans (countDrop_leads _ _)
    · have h2 := fun r => h1.trans (Leads.of_kept (upPort_kept (setReceiver x .ready p) x
        (fun q => { q with received := q.received ++ [r] }) fun _ => rfl))
      split
      · exact (h2 _).trans (handAll_leads _ _)
      · exact h2 _

theorem fromCell_leads (f : Frame) (act : StationNo → Ev → Ev) (p : Part) (h : ∀ st e, Leads e.p (act st e).p) :
    Leads p (fromCell f act p) := by
  unfold fromCell
  split
  · exact countDrop_leads _ _
  · split
    · exact handed_leads _ _ _ (h _)
    · exact handed_leads _ _ _ fun _ => forward_leads _ _ _ (.refl _)

theorem fromSaw_leads (f : Frame) (act : StationNo → Ev → Ev) (p : Part) (h : ∀ st e, Leads e.p (act st e).p) :
    Leads p (fromSaw f act p) := by
  unfold fromSaw
  split
  · exact countDrop_leads _ _
  · split
    · exact handed_leads _ _ _ (h _)
    · exact handed_leads _ _ _ fun _ => forward_leads _ _ _ (.refl _)

theorem throughSaw_leads (f : Frame) (act : StationNo → Ev → Ev) (p : Part) (h : ∀ st e, Leads e.p (act st e).p) :
    Leads p (throughSaw f act p) := by
  unfold throughSaw
  split
  · exact countDrop_leads _ _
  · split
    · exact handed_leads _ _ _ fun _ => forward_leads _ _ _ (h _ _)
    · exact handed_leads _ _ _ fun _ => forward_leads _ _ _ (.refl _)

theorem throughPlant_leads (f : Frame) (level turbidity makeup : Nat) (p : Part) :
    Leads p (throughPlant f (takeSample level turbidity makeup) p) := by
  unfold throughPlant
  split
  · exact countDrop_leads _ _
  · split
    · exact handed_leads _ _ _ fun _ => forward_leads _ _ _ (reachesWbu_leads _ _ _ (takeSample_leads _ _ _ _))
    · exact handed_leads _ _ _ fun _ => forward_leads _ _ _ (.refl _)

theorem foreignTaken_leads (x : Port) (dst src : Byte) (p : Part) : Leads p (foreignTaken x dst src p) := by
  unfold foreignTaken
  split
  · exact countDrop_leads _ _
  · split
    · exact handed_leads _ _ _ fun _ => .of_kept (raise_kept _ _ _ _)
    · exact .refl _

theorem transmissionStarts_leads (x : Port) (p : Part) : Leads p (transmissionStarts x p) := by
  unfold transmissionStarts
  split
  · exact .refl _
  · exact .of_kept (upPort_kept _ _ _ fun _ => rfl)

theorem frameIsSent_leads (x : Port) (p : Part) : Leads p (frameIsSent x p) := by
  have h := Leads.of_kept (popSent_kept x p)
  unfold frameIsSent
  split
  · split
    · exact h
    · exact event_leads _ _ (h.trans (admitOne_leads x ⟨popSent x p, []⟩))
  · exact .refl _

theorem waiterEnters_leads (x : Port) (what : Waiter → Bool) (p : Part) : Leads p (waiterEnters x what p) := by
  unfold waiterEnters
  split
  · exact .refl _
  next w hw =>
    have hwaits := candidate_waits (List.mem_of_find?_eq_some hw)
    split
    · exact event_leads _ _ (enter_waiter_leads x w ⟨p, []⟩ hwaits)
    · split
      · refine event_leads _ _ ((Leads.of_kept (popSent_kept x p)).trans
          (enter_waiter_leads x w ⟨popSent x p, []⟩ ?_))
        cases x <;> exact hwaits
      · exact .refl _

theorem someEnters_leads (x : Port) (p : Part) : Leads p (someEnters x p) := by
  unfold someEnters
  split
  · exact .refl _
  · split
    · exact event_leads _ _ (admitOne_leads x ⟨p, []⟩)
    · exact frameIsSent_leads x p

theorem frontEnters_leads (c : Prop) [Decidable c] (x : Port) (what : Waiter → Bool) (p : Part) :
    Leads p (if c then waiterEnters x what p else p) := by
  split
  · exact waiterEnters_leads x what p
  · exact .refl _

/-! ### Resets, the yard key and the timebase -/

theorem settle_legal (l : Lck) (t : Timer) (h : LockLegal l) : LockLegal { l with settle := t } := h

theorem countKey_legal (level : Level) (l : Lck) (h : LockLegal l) : LockLegal (countKey level l) := by
  unfold countKey
  simp only
  split
  · exact emptied_legal _ fun _ => rfl
  · exact h

theorem settleOver_legal (level : Level) (l : Lck) (h : LockLegal l) : LockLegal (settleOver level l) := by
  unfold settleOver
  split
  · exact h
  · exact countKey_legal level l h

theorem sampleKey_legal (level : Level) (l : Lck) (h : LockLegal l) : LockLegal (sampleKey level l) := by
  unfold sampleKey
  split
  · exact h
  · split
    · exact h
    · split
      · exact countKey_legal level l h
      · exact h

theorem keyCounted_leads (p : Part) : Leads p (keyCounted p) := by
  unfold keyCounted
  split
  · exact lock_leads _ _ (settleOver_legal _ _)
  · exact .refl _
  · exact .refl _

theorem afterReset_houseOpen (u : Jau) :
    Jau.houseOpen { u with jobs := updAll u.jobs Job.afterReset } = u.houseOpen := by
  have h : ∀ j : Job, decide (j.afterReset.state = .opened) = decide (j.state = .opened) := by
    intro j; unfold Job.afterReset; simp only; split <;> simp_all
  have e : (updAll u.jobs Job.afterReset)[0] = u.jobs[0].afterReset := updAll_get _ _ _ _
  simp only [Jau.houseOpen, e, h]

/-- A warm reset is a change of the pins, of the lock's settle timer, and the fall of tank and valve. -/
theorem warmReset_leads (p : Part) : Leads p (warmReset p) := by
  have hhouse : (warmReset p).jau.houseOpen = p.jau.houseOpen := afterReset_houseOpen p.jau
  have hpins := Relation.ReflTransGen.single (Change.pins (k := p.kept) true p.yardkey .warm)
  have hlock := hpins.tail (Change.lock { p.lck with settle := .stopped } fun h => h)
  have hreset := hlock.tail Change.reset
  have hkept : (warmReset p).kept = ⟨(warmReset p).settings, .closed, p.wbu.allowance, .stale, 0, 0, p.jau.houseOpen⟩ :=
    hhouse ▸ rfl
  rw [Leads, hkept]
  exact hreset

theorem stopMapped_kept (e : Ev) (st : StationNo) : (stopMapped e st).p.kept = e.p.kept := by
  unfold stopMapped
  split
  · exact placeSaw_kept _ _ _ _ _
  · rfl

theorem leaveReset_kept (e : Ev) : (leaveReset e).p.kept = e.p.kept := by
  have h := foldl_kept stopMapped allStations e stopMapped_kept
  unfold leaveReset
  simp only
  split
  · exact h
  · rw [offer_kept _ _ rfl]; exact h

theorem releaseReset_leads (p : Part) : Leads p (releaseReset p) := by
  have hpins := Relation.ReflTransGen.single (Change.pins (k := p.kept) false p.yardkey p.mgu.cause)
  have hlock := hpins.tail (Change.lock { p.lck with key := p.yardkey, settle := .stopped } fun h => h)
  unfold releaseReset
  generalize hq : ({ p with inReset := false, lck := _, ntu := _ } : Part) = q
  have hkept : Leads p q := by
    subst hq
    exact hlock
  exact hkept.trans (event_leads _ _ (.of_kept (leaveReset_kept _)))

theorem countDown_leads (p : Part) : Leads p (countDown p) :=
  (lock_leads p (fun l => { l with settle := l.settle.tick }) (settle_legal _ _)).trans (.of_kept rfl)

theorem expireIf_leads (out : Part → Bool) (f : Ev → Ev) (p : Part) (h : Leads p (f ⟨p, []⟩).p) :
    Leads p (expireIf out f p) := by
  unfold expireIf
  split
  · exact event_leads _ _ h
  · exact .refl _

theorem eachStation_leads (f : StationNo → Part → Part) (p : Part) (h : ∀ st p, Leads p (f st p)) :
    Leads p (eachStation f p) :=
  Leads.foldl _ (fun p st => h st p) _ _

theorem expireAll_leads (p : Part) : Leads p (expireAll p) :=
  have overrun : ∀ q, Leads q (eachStation _ q) := fun q =>
    eachStation_leads (fun st => expireIf (fun q => q.cpl[st].overrun.isOut) (overrunExpired st)) q fun st _ =>
      expireIf_leads _ _ _ (.of_kept (overrunExpired_kept st _))
  have stop : ∀ q, Leads q (eachStation _ q) := fun q =>
    eachStation_leads (fun st => expireIf (fun q => q.cpl[st].stop.isOut) (stopExpired st)) q fun st _ =>
      expireIf_leads _ _ _ (.of_kept (stopExpired_kept st _))
  have coalescing : ∀ q, Leads q (eachStation _ q) := fun q =>
    eachStation_leads (fun st => expireIf (fun q => q.psu.posts[st].timer.isOut) fun e => e.map (coalesceExpired st)) q
      fun st _ => expireIf_leads _ _ _ (.of_kept (coalesceExpired_kept st _))
  have sample : ∀ q, Leads q (expireIf (fun q => q.wbu.sampleTimer.isOut) sampleExpired q) := fun q =>
    expireIf_leads _ _ _ (sampleExpired_leads ⟨q, []⟩)
  have freeze : ∀ q, Leads q (expireIf (fun q => q.psu.freezeTimer.isOut) freezeExpired q) := fun q =>
    expireIf_leads _ _ _ (.of_kept (freezeExpired_kept _))
  have summary : ∀ q, Leads q (expireIf (fun q => q.ntu.timer.isOut) summaryExpired q) := fun q =>
    expireIf_leads _ _ _ (.of_kept (summaryExpired_kept _))
  have key : ∀ q : Part, Leads q (q.upLck (sampleKey q.yardkey)) := fun q => lock_leads _ _ (sampleKey_legal _ _)
  ((((((overrun p).trans (stop _)).trans (coalescing _)).trans (sample _)).trans (freeze _)).trans (summary _)).trans
    (key _)

theorem millisecond_leads (p : Part) : Leads p (millisecond p) := by
  have hdrain : ∀ q, Leads q (drainAll q) := fun q =>
    eachStation_leads _ _ fun st _ => expireIf_leads _ _ _ (.of_kept (drainOnce_kept st _))
  unfold millisecond
  split
  · exact .refl _
  · exact ((((handAll_leads _ _).trans (handAll_leads _ _)).trans (hdrain _)).trans (countDown_leads _)).trans
      (expireAll_leads _)

/-! ### Commands -/

/-- A command's outcome is a next state with the same commands waiting, whose part follows by changes of `Change`. -/
def Follows (s : State) (r : Result) : Prop := ∃ q, r = .next (s.withPart q) ∧ Leads s.part q

theorem live_follows (s : State) (f : Part → Part) (h : Leads s.part (f s.part)) : Follows s (live s f) := by
  unfold live
  split
  · exact ⟨s.part, rfl, .refl _⟩
  · exact ⟨f s.part, rfl, h⟩

theorem request_follows (r : Request) (s : State) : Follows s (request r s) :=
  live_follows s _ (handed_leads _ _ _ (handRequest_leads r))

theorem frameReceived_follows (port : Port) (dst src kind : Byte) (payload : List Byte) (crc : Half) (handed : Bool)
    (s : State) : Follows s (execFrameReceived port dst src kind payload crc handed s) := by
  refine live_follows s _ ?_
  split
  · exact frameCompleted_leads _ _ _ _ _
  · exact .refl _

theorem malformedRequest_follows (payload : List Byte) (s : State) : Follows s (execMalformedRequest payload s) := by
  unfold execMalformedRequest
  split
  · exact request_follows _ s
  · exact ⟨s.part, rfl, .refl _⟩

theorem resetnRelease_follows (s : State) : Follows s (execResetnRelease s) := by
  unfold execResetnRelease
  split
  · exact ⟨_, rfl, releaseReset_leads _⟩
  · exact ⟨s.part, rfl, .refl _⟩

theorem stationCommand_follows (f : Frame) (code : Byte) (s : State) :
    Follows s (live s (fromCell f fun st => stationCommand st code)) :=
  live_follows s _ (fromCell_leads _ _ _ fun st e => .of_kept (stationCommand_kept st code e))

theorem event_follows (f : Ev → Ev) (s : State) (h : ∀ e, Leads e.p (f e).p) : Follows s (live s (event f)) :=
  live_follows s _ (event_leads _ _ (h ⟨s.part, []⟩))

/-- Every command is carried out (log 4), and what it does to the tables, the valve and the house job. -/
theorem exec_follows (c : Instr) (s : State) : Follows s (exec c s) := by
  cases c with
  | powerUp locken yardkey => exact ⟨_, rfl, .of_change (Change.powerUp locken yardkey)⟩
  | resetnAssert => exact live_follows s _ (warmReset_leads _)
  | resetnRelease => exact resetnRelease_follows s
  | receivePairIdle port => exact live_follows s _ (pairIdle_leads _ _)
  | badStartByte port byte => exact live_follows s _ (badStart_leads _ _ _)
  | payloadLengthAbove64 port length => exact live_follows s _ (badLength_leads _ _ _)
  | truncatedFrame port => exact live_follows s _ (truncated_leads _ _)
  | frameReceived port dst src kind payload crc handed => exact frameReceived_follows port dst src kind payload crc handed s
  | foreignManage port dst src payload => exact live_follows s _ (foreignTaken_leads _ _ _ _)
  | malformedRequest payload => exact malformedRequest_follows payload s
  | manageRequestReceived | identify | lineReset | mapRead | mapWrite | releaseStation | serviceStation | classRead
  | classWrite | pipeRead | pipeWrite | slabWrite | slabRemove | slabRead | slabScan | stockCount | lockRange | lockAll
  | lockHard | lockQuery | waterWrite | waterRead | waterState | newDay | postingWrite | postingRead | auditFreeze
  | auditThaw | jobOpen | jobClose | jobDiscard | jobRead | ratesWrite | ratesRead | noticeRead | ackAttention
  | summaryWrite | summaryRead => exact request_follows _ s
  | lineResetComplete | freezeTakesEffect => exact event_follows id s fun _ => .refl _
  | cutOrder dst src order =>
    exact live_follows s _ (fromCell_leads _ _ _ fun st e => .of_kept (takeOrder_kept st order e))
  | hold | resume | abort | flush | unknownStationCommand => exact stationCommand_follows _ _ s
  | panelClaim dst src => exact live_follows s _ (throughSaw_leads _ _ _ fun st e => .of_kept (panelClaimed_kept st e))
  | panelRelease dst src =>
    exact live_follows s _ (throughSaw_leads _ _ _ fun st e => .of_kept (panelReleased_kept st e))
  | panelStop dst src => exact live_follows s _ (throughSaw_leads _ _ _ fun st e => .of_kept (addHold_kept st _ e))
  | panelResume dst src => exact live_follows s _ (throughSaw_leads _ _ _ fun st e => .of_kept (removeHold_kept st _ e))
  | cutPass dst src ticket pass =>
    exact live_follows s _ (throughSaw_leads _ _ _ fun st e => .of_kept (passReported_kept st ticket pass e.p))
  | cutDone dst src ticket outcome run =>
    exact live_follows s _ (fromSaw_leads _ _ _ fun st e => .of_kept (doneReported_kept st ticket outcome _ e))
  | usage dst src water energy run =>
    exact live_follows s _ (throughSaw_leads _ _ _ fun st e => .of_kept (takeUsage_kept st _ _ _ e))
  | drainApplication station => exact event_follows _ s fun e => .of_kept (drainOnce_kept station e)
  | waterSample dst src level turbidity makeup => exact live_follows s _ (throughPlant_leads _ _ _ _ _)
  | overrunExpiry station => exact event_follows _ s fun e => .of_kept (overrunExpired_kept station e)
  | stopTimeout station => exact event_follows _ s fun e => .of_kept (stopExpired_kept station e)
  | sampleTimeout => exact event_follows _ s sampleExpired_leads
  | coalescingTimerExpiry station => exact event_follows _ s fun e => .of_kept (coalesceExpired_kept station e.p)
  | freezeExpiry => exact event_follows _ s fun e => .of_kept (freezeExpired_kept e)
  | summaryTimerExpiry => exact event_follows _ s fun e => .of_kept (summaryExpired_kept e)
  | yardkeyChange level => exact ⟨_, rfl, .of_change (Change.pins s.part.inReset level s.part.mgu.cause)⟩
  | yardkeySettleExpiry => exact live_follows s _ (keyCounted_leads _)
  | frameSent port => exact ⟨_, rfl, frameIsSent_leads _ _⟩
  | originatedFrameEnters port => exact live_follows s _ (someEnters_leads _ _)
  | programFrameEnters | sawStopEnters => exact live_follows s _ (frontEnters_leads _ _ _ _)
  | makeupOpenEnters | recordHoldRecordEnters | spentSlotRecordEnters | onDeckPlaceRecordEnters | manageAnswerEnters
  | jobReadSegmentEnters | attentionEnters => exact live_follows s _ (waiterEnters_leads _ _ _)
  | startDelimiterReceived port => exact live_follows s _ (delimiterTaken_leads _ _)
  | transmissionStart port => exact live_follows s _ (transmissionStarts_leads _ _)

theorem step_leads (s t : State) (h : step s = .next t) : Leads s.part t.part := by
  unfold step at h
  split at h
  · cases h
    exact millisecond_leads _
  next c rest _ =>
    obtain ⟨q, hq, hl⟩ := exec_follows c { s with pending := rest }
    rw [hq] at h
    cases h
    exact hl

/-! ### The invariants -/

/-- What each change of `Change` keeps, every step keeps. -/
theorem step_keeps (K : Kept → Prop) (hK : ∀ k k', Change k k' → K k → K k') (s t : State) (hs : K s.part.kept)
    (h : step s = .next t) : K t.part.kept := by
  have hl := step_leads s t h
  unfold Leads at hl
  generalize t.part.kept = k at hl
  induction hl with
  | refl => exact hs
  | tail _ hc ih => exact hK _ _ hc ih

/-- R144, R145 on what the steps keep. -/
def Kept.ValveLegal (k : Kept) : Prop :=
  k.stray = 0 ∧ k.opens ≤ 1 ∧ (k.valve = .opened → k.opens = 0)
    ∧ ((k.allowance = 0 ∨ k.freshness = .stale) → k.valve = .closed ∧ k.opens = 0)
    ∧ (k.settings.consts.plantNode = 0 → k.freshness = .stale)

theorem valveLegal_iff (p : Part) : ValveLegal p ↔ p.kept.ValveLegal := Iff.rfl

/-- The valve rule keeps its law whatever allowance, freshness and valve it finds. -/
theorem ValveRuled.legal {shut : Prop} {v v' : Valve} {n n' : Nat} (h : ValveRuled shut v n v' n') (h1 : n ≤ 1)
    (h2 : v = .opened → n = 0) :
    n' ≤ 1 ∧ (v' = .opened → n' = 0) ∧ (shut → v' = .closed ∧ n' = 0) := by
  cases h with
  | stays hs =>
    refine ⟨h1, h2, fun h => ⟨?_, ?_⟩⟩
    · cases v with
      | opened => exact absurd ⟨.inl rfl, h⟩ hs
      | closed => rfl
    · by_contra hn
      exact hs ⟨.inr (Nat.pos_of_ne_zero hn), h⟩
  | opensNow hs _ => exact ⟨Nat.zero_le _, fun _ => rfl, fun h => absurd h hs⟩
  | opensLater hs _ _ => exact ⟨Nat.le_refl _, nofun, fun h => absurd h hs⟩
  | withdraws hn =>
    refine ⟨Nat.zero_le _, fun _ => rfl, fun _ => ⟨?_, rfl⟩⟩
    cases v with
    | opened => rw [h2 rfl] at hn; cases hn
    | closed => rfl
  | closes => exact ⟨Nat.zero_le _, fun _ => rfl, fun _ => ⟨rfl, rfl⟩⟩

theorem change_valveLegal (k k' : Kept) (h : Change k k') (hk : k.ValveLegal) : k'.ValveLegal := by
  obtain ⟨hstray, hone, hopen, hshut, hplant⟩ := hk
  cases h with
  | water c a f v n hc hf hr =>
    obtain ⟨h1, h2, h3⟩ := hr.legal hone hopen
    refine ⟨hstray, h1, h2, h3, fun h0 => ?_⟩
    rcases hf h0 with h | ⟨h, hn⟩
    · exact h
    · exact h.trans (hplant (hn ▸ h0))
  | opened hpos =>
    refine ⟨hstray, Nat.le_trans (Nat.sub_le _ _) hone, fun _ => Nat.sub_eq_zero_of_le hone, fun h => ?_, hplant⟩
    rw [(hshut h).2] at hpos
    cases hpos
  | strayed hpos => rw [hstray] at hpos; cases hpos
  | reset => exact ⟨rfl, Nat.zero_le _, nofun, fun _ => ⟨rfl, rfl⟩, fun _ => rfl⟩
  | powerUp => exact ⟨rfl, Nat.zero_le _, nofun, fun _ => ⟨rfl, rfl⟩, fun _ => rfl⟩
  | map | cls | pipe | lock | posting | rates | summary | pins => exact ⟨hstray, hone, hopen, hshut, hplant⟩

theorem mapLegal_write (m : Vector MapEntry 8) (st : StationNo) (new : MapEntry) (hm : MapLegal m)
    (hn : nodeOk new.node = true)
    (hd : new.mapped = true → ∀ x : StationNo, x ≠ st → m[x].mapped = true → m[x].node ≠ new.node) :
    MapLegal (upd m st fun _ => new) := by
  obtain ⟨hnodes, happart⟩ := hm
  refine ⟨fun x => ?_, fun a b ha hb hab => ?_⟩
  · rw [upd_get]
    split
    · exact (nodeOk_iff _).mp hn
    · exact hnodes x
  · rw [upd_get] at ha hb hab
    rw [upd_get] at hab
    by_cases h1 : st = a
    · by_cases h2 : st = b
      · exact h1.symm.trans h2
      · rw [if_pos h1] at ha hab; rw [if_neg h2] at hb hab
        exact absurd hab.symm (hd ha b (Ne.symm h2) hb)
    · by_cases h2 : st = b
      · rw [if_neg h1] at ha hab; rw [if_pos h2] at hb hab
        exact absurd hab (hd hb a (Ne.symm h1) ha)
      · rw [if_neg h1] at ha hab; rw [if_neg h2] at hb hab
        exact happart a b ha hb hab

theorem classOf_inRange (f : ClassFields) : (classOf f).1.InRange := by
  refine ⟨clamp_bounds 1 10 _ (by decide), clamp_bounds 5 40 _ (by decide), clamp_bounds 1 2000 _ (by decide), ?_,
    clamp_bounds 100 2000 _ (by decide), clamp_bounds 50 1000 _ (by decide)⟩
  intro m
  fin_cases m <;> exact clamp_bounds 1 200 _ (by decide)

theorem powerUp_inRange (locken yardkey : Level) : SettingsInRange (Part.powerUp locken yardkey).settings := by
  refine ⟨⟨fun st => ?_, fun a b ha => ?_⟩, fun c => ?_,
    show (110 ≤ 200 ∧ 200 ≤ 400) ∧ 60 ≤ 600 ∧ 1 ≤ 10 ∧ 10 ≤ 60 by decide,
    ⟨show 1 ≤ 511 by decide, show 0 ≤ 511 by decide, ?_⟩, .inl rfl, show 1 ≤ 20 ∧ 20 ≤ 255 by decide,
    show 1 ≤ 120 ∧ 120 ≤ 600 by decide, Nat.zero_le _, Nat.zero_le _, Nat.zero_le _, show 10 ≤ 100 by decide⟩
  · exact .inl (by fin_cases st <;> rfl)
  · have : (Part.powerUp locken yardkey).settings.map[a].mapped = false := by fin_cases a <;> rfl
    rw [this] at ha
    cases ha
  · have : (Part.powerUp locken yardkey).settings.classes[c] = SawClass.initial := by fin_cases c <;> rfl
    rw [this]
    unfold SawClass.InRange
    decide
  · exact fun _ => ⟨rfl, rfl, rfl, rfl⟩

theorem change_inRange (k k' : Kept) (h : Change k k') (hk : SettingsInRange k.settings) :
    SettingsInRange k'.settings := by
  obtain ⟨hmap, hcls, hpipe, hlck, hconsts, hperiod, hlimit, hwater, hrun, henergy, hsummary⟩ := hk
  cases h with
  | map st new hn hd =>
    exact ⟨mapLegal_write _ st new hmap hn hd, hcls, hpipe, hlck, hconsts, hperiod, hlimit, hwater, hrun, henergy, hsummary⟩
  | cls c f =>
    refine ⟨hmap, fun x => ?_, hpipe, hlck, hconsts, hperiod, hlimit, hwater, hrun, henergy, hsummary⟩
    rw [upd_get]
    split
    · exact classOf_inRange f
    · exact hcls x
  | pipe percent grace stop =>
    exact ⟨hmap, hcls, ⟨clamp_bounds 110 400 _ (by decide), (clamp_bounds 0 600 _ (by decide)).2,
      clamp_bounds 1 60 _ (by decide)⟩, hlck, hconsts, hperiod, hlimit, hwater, hrun, henergy, hsummary⟩
  | lock l hl =>
    exact ⟨hmap, hcls, hpipe, hl hlck, hconsts, hperiod, hlimit, hwater, hrun, henergy, hsummary⟩
  | posting period limit =>
    exact ⟨hmap, hcls, hpipe, hlck, hconsts, clamp_bounds 1 255 _ (by decide), clamp_bounds 1 600 _ (by decide), hwater,
      hrun, henergy, hsummary⟩
  | rates water run energy =>
    exact ⟨hmap, hcls, hpipe, hlck, hconsts, hperiod, hlimit, (clamp_bounds 0 100000 _ (by decide)).2,
      (clamp_bounds 0 100000 _ (by decide)).2, (clamp_bounds 0 10000 _ (by decide)).2, hsummary⟩
  | summary period =>
    exact ⟨hmap, hcls, hpipe, hlck, hconsts, hperiod, hlimit, hwater, hrun, henergy, (clamp_bounds 0 100 _ (by decide)).2⟩
  | water c a f v n hc =>
    refine ⟨hmap, hcls, hpipe, hlck, ?_, hperiod, hlimit, hwater, hrun, henergy, hsummary⟩
    rcases hc with rfl | hc
    · exact hconsts
    · exact hc
  | powerUp locken yardkey => exact powerUp_inRange locken yardkey
  | pins | opened | strayed | reset =>
    exact ⟨hmap, hcls, hpipe, hlck, hconsts, hperiod, hlimit, hwater, hrun, henergy, hsummary⟩

theorem change_house (k k' : Kept) (h : Change k k') (hk : k.house = true) : k'.house = true := by
  cases h with
  | powerUp => rfl
  | _ => exact hk

/-- Settles O57: a fact about one change of a table. -/
theorem tablesStayInRange : Obligations.TablesStayInRange :=
  fun s t hs h => step_keeps (fun k => SettingsInRange k.settings) change_inRange s t hs h

/-- Settles O58: a fact about one change of the valve. -/
theorem valveStaysLegal : Obligations.ValveStaysLegal :=
  fun s t hs h => step_keeps Kept.ValveLegal change_valveLegal s t hs h

/-- Settles O59: no change but a power-up touches whether the house job is OPEN. -/
theorem houseJobStaysOpen : Obligations.HouseJobStaysOpen :=
  fun s t hs h => 
    of_decide_eq_true (p := t.part.jau.jobs[0].state = .opened)
      (step_keeps (fun k => k.house = true) change_house s t
        (decide_eq_true (show s.part.jau.jobs[0].state = .opened from hs)) h)

/-- Settles O60: the state after reset is a power-up. -/
theorem resetMeetsTheInvariants : Obligations.ResetMeetsTheInvariants :=
  ⟨powerUp_inRange _ _, ⟨rfl, Nat.zero_le _, nofun, fun _ => ⟨rfl, rfl⟩, fun _ => rfl⟩, rfl⟩

/-- Settles O2. -/
theorem everyCommandIsCarriedOut : Obligations.EveryCommandIsCarriedOut := by
  intro c s
  obtain ⟨q, hq, -⟩ := exec_follows c s
  exact ⟨_, hq, rfl⟩

/-- Settles O1. -/
theorem stepRunsTheFrontCommand : Obligations.StepRunsTheFrontCommand := by
  intro c rest s h
  unfold step
  rw [h]

end Sys2Proof.Machine
end

section
/-! PROOF. The line: requests and payloads survive their encoding, the receivers, and the frames the part takes, drops
and forwards. -/

namespace Sys2Proof.Machine

/-! ### Encodings -/

/-- The arguments of every request decode to it. -/
theorem decodeBody_args (b : ReqBody) (h : b ≠ .malformed) :
    decodeBody (bodyCode b).toNat (bodyArgs b) = some b := by
  cases b with
  | malformed => exact absurd rfl h
  | mapWrite station node cls enabled => exact getMap_args station node cls enabled
  | classWrite cls entry => exact getClass_args cls entry
  | pipeWrite percent grace stop => exact getPipe_args percent grace stop
  | slabWrite fields => exact getSlab_args fields
  | slabRemove number => exact getHalf_args .slabRemove number
  | slabRead number => exact getHalf_args .slabRead number
  | slabScan start => exact getHalf_args .slabScan start
  | lockRange low high invert => exact getRange_args low high invert
  | waterWrite fields => exact getWater_args fields
  | postingWrite period limit => exact getPosting_args period limit
  | jobOpen job reference => exact getJobOpen_args job reference
  | ratesWrite water run energy => exact getRates_args water run energy
  | identify | lineReset | mapRead | releaseStation | serviceStation | classRead | pipeRead | stockCount | lockAll
  | lockHard | lockQuery | waterRead | waterState | newDay | postingRead | auditFreeze | auditThaw | jobClose
  | jobDiscard | jobRead | ratesRead | noticeRead | ackAttention | summaryWrite | summaryRead => rfl

theorem bodyArgs_length (b : ReqBody) : (bodyArgs b).length ≤ 62 := by
  cases b <;> simp [bodyArgs, putClass, putSlab, putWater]

/-- A request's payload names it again. -/
theorem decodeRequest_encode (tag : Byte) (b : ReqBody) (h : b ≠ .malformed) :
    decodeRequest (encodeRequest tag b) = requestOf tag b :=
  decodeRequest_body tag b (decodeBody_args b h)

/-- Settles O4. -/
theorem requestsSurviveTheLine : Obligations.RequestsSurviveTheLine :=
  fun tag b h => ⟨decodeRequest_encode tag b h, Nat.succ_le_succ (Nat.succ_le_succ (bodyArgs_length b))⟩

theorem decodeOrder_encode (o : OrderFields) : decodeOrder (encodeOrder o) = some o := by
  have h : decodeOrder (encodeOrder o) = some { o with
      source := joined16 o.source, len := joined16 o.len, wid := joined16 o.wid, tag := joined16 o.tag } := rfl
  rw [h]
  simp only [joined16, halves_append]

theorem decodeCutDone_encode (ticket outcome : Byte) (run : Word) :
    decodeCutDone (encodeCutDone ticket outcome run) = some (ticket, outcome, run) := by
  have h : decodeCutDone (encodeCutDone ticket outcome run) = some (ticket, outcome, joined32 run) := rfl
  rw [h, joined32, quarters_append]

theorem decodeUsage_encode (water energy run : Half) :
    decodeUsage (encodeUsage water energy run) = some (water, energy, run) := by
  have h : decodeUsage (encodeUsage water energy run) = some (joined16 water, joined16 energy, joined16 run) := rfl
  rw [h]
  simp only [joined16, halves_append]

theorem decodeSample_encode (level : Word) (turbidity : Half) (makeup : Word) :
    decodeSample (encodeSample level turbidity makeup) = some (level, turbidity, makeup) := by
  have h : decodeSample (encodeSample level turbidity makeup) =
      some (joined32 level, joined16 turbidity, joined32 makeup) := rfl
  rw [h]
  simp only [joined16, joined32, halves_append, quarters_append]

/-- Settles O5. -/
theorem framePayloadsSurviveTheLine : Obligations.FramePayloadsSurviveTheLine :=
  ⟨fun o => ⟨decodeOrder_encode o, rfl⟩, fun ticket outcome run => ⟨decodeCutDone_encode ticket outcome run, rfl⟩,
    fun water energy run => ⟨decodeUsage_encode water energy run, rfl⟩,
    fun level turbidity makeup => ⟨decodeSample_encode level turbidity makeup, rfl⟩⟩

/-! ### Receivers and transmitters -/

theorem live_released (s : State) (f : Part → Part) (h : s.part.inReset = false) :
    live s f = .next { s with part := f s.part } := by
  simp [live, h]

theorem upPort_upPort (p : Part) (x : Port) (f g : PortState → PortState) :
    (p.upPort x f).upPort x g = p.upPort x fun q => g (f q) := by
  cases x <;> rfl

/-- R4: the count of dropped frames stops at 65535. -/
theorem min_drop (n : Nat) : min 65535 (n + 1) = if n < 65535 then n + 1 else 65535 := by
  split <;> omega

theorem countDrop_eq (x : Port) (p : Part) : countDrop x p = p.upPort x fun q =>
    { q with dropped := if q.dropped < 65535 then q.dropped + 1 else 65535 } := by
  simp only [countDrop, min_drop]

/-- A dropped frame and the receiver's next state. -/
theorem setReceiver_countDrop (x : Port) (r : Receiver) (p : Part) : setReceiver x r (countDrop x p) =
    p.upPort x fun q => { q with receiver := r, dropped := if q.dropped < 65535 then q.dropped + 1 else 65535 } := by
  rw [countDrop_eq, setReceiver, upPort_upPort]

theorem countDrop_setReceiver (x : Port) (r : Receiver) (p : Part) : countDrop x (setReceiver x r p) =
    p.upPort x fun q => { q with receiver := r, dropped := if q.dropped < 65535 then q.dropped + 1 else 65535 } := by
  rw [countDrop_eq, setReceiver, upPort_upPort]

/-- Settles O7. -/
theorem receiverStatesFollowThePair : Obligations.ReceiverStatesFollowThePair := by
  intro x s h
  refine ⟨fun hr => ?_, fun hr => ?_, fun hr => ?_, fun hr => ?_, fun hr => ?_⟩
  · exact (live_released s _ h).trans (by simp only [pairIdle, hr, setReceiver])
  · exact (live_released s _ h).trans (by simp only [pairIdle, hr])
  · exact (live_released s _ h).trans (by simp only [delimiterTaken, hr, if_true, setReceiver])
  · exact (live_released s _ h).trans (by simp only [delimiterTaken, hr, reduceCtorEq, if_false])
  · exact (live_released s _ h).trans (by simp only [truncated, hr, if_true, setReceiver_countDrop])

/-- With nothing waiting nothing enters. -/
theorem admitOne_none (x : Port) (e : Ev) (h : (e.p.port x).waiting = []) : admitOne x e = e := by
  have hc : candidates (e.p.port x) = [] := by simp only [candidates, h]; rfl
  simp only [admitOne, hc]

/-- Settles O10. -/
theorem transmitterSendsTheOldestFrame : Obligations.TransmitterSendsTheOldestFrame := by
  intro x s f rest h hq
  obtain ⟨hreset, hqueue, hprogress, -, -, hU, hD⟩ := h
  refine ⟨fun hs => ?_, fun hs => ?_⟩
  · exact (live_released s _ hreset).trans (by simp [transmissionStarts, hs, hq])
  · have hpop : popSent x s.part = s.part.upPort x fun q => { q with queue := rest, sending := false } := by
      cases x <;> simp only [Part.port_U, Part.port_D] at hq <;>
        simp only [popSent, Part.upPort, hq, List.drop_one, List.tail_cons]
    have hadmit : admitOne x ⟨popSent x s.part, []⟩ = ⟨popSent x s.part, []⟩ :=
      admitOne_none x _ (by cases x <;> assumption)
    have hevent : event (fun e => admitOne x (e.map (popSent x))) s.part = popSent x s.part :=
      event_idle _ _ _ hadmit (by simpa [popSent] using hprogress) (by simpa [popSent] using hqueue)
        (by cases x <;> exact hU) (by cases x <;> exact hD)
    show Host.Outcome.next _ = _
    rw [frameIsSent, if_pos hs, if_neg (by simp [hreset]), hevent, hpop]

end Sys2Proof.Machine
end

section
/-! PROOF. A frame's reception (R3, R6 to R8): the faults, the frames forwarded, and the frames that a row of the table
stands for. -/

namespace Sys2Proof.Machine

theorem exec_frameReceived (x : Port) (dst src kind : Byte) (payload : List Byte) (crc : Half) (handed : Bool)
    (s : State) (h : s.part.inReset = false) (hr : (s.part.port x).receiver = .receiving) (hl : payload.length ≤ 64) :
    exec (.frameReceived x dst src kind payload crc handed) s =
      .next { s with part := frameCompleted x ⟨dst, src, kind, payload⟩ crc handed s.part } := by
  refine (live_released s _ h).trans ?_
  simp only [hr, payloadOk, hl, decide_true, and_self, if_true]

/-- R3: a frame with an illegal address or a wrong CRC is dropped. -/
theorem frameCompleted_faulty (x : Port) (f : Frame) (crc : Half) (handed : Bool) (p : Part)
    (h : 63 < f.dst.toNat ∨ 62 < f.src.toNat ∨ crc ≠ frameCrc f.dst f.src f.kind f.payload) :
    frameCompleted x f crc handed p = countDrop x (setReceiver x .ready p) := by
  have hbad : (!nodesOk f.dst f.src || decide (crc ≠ frameCrc f.dst f.src f.kind f.payload)) = true := by
    rcases h with h | h | h
    · simp [nodesOk, Config.broadcast, Nat.not_le.mpr h]
    · simp [nodesOk, Config.lastNode, Nat.not_le.mpr h]
    · simp [h]
  simp only [frameCompleted, hbad, if_true]

/-- R6: a frame with legal addresses and its right CRC is classified by the map, and dropped when it is intercepted with
a wrong length. -/
theorem frameCompleted_dropped (x : Port) (f : Frame) (handed : Bool) (p : Part) (hd : f.dst.toNat ≤ 63)
    (hs : f.src.toNat ≤ 62) (hc : classify p x f = none) :
    frameCompleted x f (frameCrc f.dst f.src f.kind f.payload) handed p = countDrop x (setReceiver x .ready p) := by
  simp only [frameCompleted, nodesOk_legal _ _ hd hs, hc, Bool.not_true, ne_eq, not_true_eq_false, decide_false,
    Bool.or_self, Bool.false_eq_true, if_false]

theorem frameCompleted_kept (x : Port) (f : Frame) (c : FrameClass) (handed : Bool) (p : Part) (hd : f.dst.toNat ≤ 63)
    (hs : f.src.toNat ≤ 62) (hc : classify p x f = some c) :
    frameCompleted x f (frameCrc f.dst f.src f.kind f.payload) handed p =
      if handed then
        handAll x ((setReceiver x .ready p).upPort x fun q => { q with received := q.received ++ [⟨f, c⟩] })
      else (setReceiver x .ready p).upPort x fun q => { q with received := q.received ++ [⟨f, c⟩] } := by
  simp only [frameCompleted, nodesOk_legal _ _ hd hs, hc, Bool.not_true, ne_eq, not_true_eq_false, decide_false,
    Bool.or_self, Bool.false_eq_true, if_false]

theorem intercepted_none (st : StationNo) (f : Frame) (length : Nat) (c : StationNo → FrameClass)
    (h : f.payload.length ≠ length) : intercepted (some st) f length c = none := by
  simp [intercepted, h]

/-- Settles O8. -/
theorem faultyFramesAreDroppedAndCounted : Obligations.FaultyFramesAreDroppedAndCounted := by
  intro x s h
  refine ⟨fun byte hr hb => ?_, fun length hr hl => ?_, ?_, ?_⟩
  · refine (live_released s _ h).trans ?_
    rw [badStart, if_pos ⟨hr, hb⟩, setReceiver_countDrop]
  · refine (live_released s _ h).trans ?_
    rw [badLength, if_pos ⟨hr, hl⟩, setReceiver_countDrop]
  · intro dst src kind payload crc handed hr hl hbad
    rw [exec_frameReceived x dst src kind payload crc handed s h hr hl, frameCompleted_faulty _ _ _ _ _ hbad,
      countDrop_setReceiver]
  · intro dst src kind payload handed st hr hl hd hs hcase
    have hclass : classify s.part x ⟨dst, src, kind, payload⟩ = none := by
      rcases hcase with ⟨rfl, hst, rfl, hn⟩ | ⟨rfl, hst, rfl, hn⟩ | ⟨rfl, hst, rfl, hn⟩
      · show intercepted (stationOf s.part dst) _ 12 .cutOrder = none
        rw [hst, intercepted_none _ _ _ _ hn]
      · show intercepted (stationOf s.part dst) _ 1 .command = none
        rw [hst, intercepted_none _ _ _ _ hn]
      · show intercepted (stationOf s.part src) _ 6 .cutDone = none
        rw [hst, intercepted_none _ _ _ _ hn]
    rw [exec_frameReceived x dst src kind payload _ handed s h hr hl,
      frameCompleted_dropped x ⟨dst, src, kind, payload⟩ handed _ hd hs hclass, countDrop_setReceiver]

/-- A frame handed over in the event of its reception, with none kept before it (log 5). -/
theorem frameCompleted_handed (x : Port) (f : Frame) (c : FrameClass) (p : Part) (hd : f.dst.toNat ≤ 63)
    (hs : f.src.toNat ≤ 62) (hc : classify p x f = some c) (hr : (p.port x).received = []) :
    frameCompleted x f (frameCrc f.dst f.src f.kind f.payload) true p =
      event (handOne x ⟨f, c⟩) (setReceiver x .ready p) := by
  rw [frameCompleted_kept x f c true p hd hs hc, if_pos rfl]
  cases x
  · simp only [Part.port_U] at hr
    simp only [handAll, handOver, setReceiver, Part.upPort, Part.port, hr, List.nil_append, List.length_singleton]
  · simp only [Part.port_D] at hr
    simp only [handAll, handOver, setReceiver, Part.upPort, Part.port, hr, List.nil_append, List.length_singleton]

/-! ### Frames that are forwarded -/

theorem intercepted_unmapped (f : Frame) (length : Nat) (c : StationNo → FrameClass) :
    intercepted none f length c = some .forward := rfl

theorem actedOn_forward (st : Option StationNo) (f : Frame) (length : Nat) (c : StationNo → FrameClass)
    (h : st = none ∨ f.payload.length ≠ length) : actedOn st f length c = some .forward := by
  cases st with
  | none => rfl
  | some x => simp [actedOn, h.resolve_left nofun]

/-- The kinds that R6 gives a row of a port. -/
def rowKinds (x : Port) : List Byte :=
  match x with
  | .U => [0x21, 0x22, 0x30]
  | .D => [0x30, 0x61, 0x62, 0x63, 0x64, 0x65, 0x66, 0x67, 0x71]

/-- A kind of no row of R6 is forwarded. -/
theorem classify_unknown (p : Part) (x : Port) (f : Frame) (h : f.kind ∉ rowKinds x) :
    classify p x f = some .forward := by
  have hn : BitVec.ofNat 8 f.kind.toNat ∉ rowKinds x := by simpa using h
  unfold classify
  generalize f.kind.toNat = n at hn ⊢
  cases x
  · simp only; split <;> simp_all [rowKinds]
  · simp only; split <;> simp_all [rowKinds]

theorem classify_U_forward (p : Part) (dst src kind : Byte) (payload : List Byte)
    (h : kind ∉ [(0x21 : Byte), 0x22, 0x30] ∨ kind ≠ 0x30 ∧ stationOf p dst = none ∨ kind = 0x30 ∧ dst ≠ 1) :
    classify p .U ⟨dst, src, kind, payload⟩ = some .forward := by
  by_cases hk : kind ∈ [(0x21 : Byte), 0x22, 0x30]
  · simp only [List.mem_cons, List.not_mem_nil, or_false] at hk
    rcases hk with rfl | rfl | rfl
    · have hst : stationOf p dst = none := by simpa using h
      exact (congrArg (intercepted · _ 12 .cutOrder) hst).trans (intercepted_unmapped _ _ _)
    · have hst : stationOf p dst = none := by simpa using h
      exact (congrArg (intercepted · _ 1 .command) hst).trans (intercepted_unmapped _ _ _)
    · have hdst : dst ≠ 1 := by simpa using h
      exact if_neg fun e => hdst (BitVec.eq_of_toNat_eq e)
  · exact classify_unknown p .U ⟨dst, src, kind, payload⟩ hk

theorem classify_D_forward (p : Part) (dst src kind : Byte) (payload : List Byte)
    (h : kind ∉ [(0x30 : Byte), 0x61, 0x62, 0x63, 0x64, 0x65, 0x66, 0x67, 0x71]
      ∨ kind ≠ 0x30 ∧ kind ≠ 0x71 ∧ stationOf p src = none
      ∨ kind = 0x62 ∧ payload.length ≠ 2 ∨ kind = 0x63 ∧ payload.length ≠ 6
      ∨ kind ∈ [(0x64 : Byte), 0x65, 0x66, 0x67] ∧ payload.length ≠ 0
      ∨ kind = 0x71 ∧ (payload.length ≠ 10 ∨ p.wbu.consts.plantNode = 0 ∨ src.toNat ≠ p.wbu.consts.plantNode)) :
    classify p .D ⟨dst, src, kind, payload⟩ = some .forward := by
  by_cases hk : kind ∈ [(0x30 : Byte), 0x61, 0x62, 0x63, 0x64, 0x65, 0x66, 0x67, 0x71]
  · have hpanel : kind ∈ [(0x64 : Byte), 0x65, 0x66, 0x67] →
        actedOn (stationOf p src) ⟨dst, src, kind, payload⟩ 0 .panel = some .forward := by
      intro hp
      refine actedOn_forward _ _ _ _ ?_
      simp only [List.mem_cons, List.not_mem_nil, or_false] at hp
      rcases hp with rfl | rfl | rfl | rfl <;> simpa using h
    simp only [List.mem_cons, List.not_mem_nil, or_false] at hk
    rcases hk with rfl | rfl | rfl | rfl | rfl | rfl | rfl | rfl | rfl
    · simp at h
    · have hst : stationOf p src = none := by simpa using h
      exact (congrArg (intercepted · _ 6 .cutDone) hst).trans (intercepted_unmapped _ _ _)
    · exact actedOn_forward _ _ 2 _ (by simpa using h)
    · exact actedOn_forward _ _ 6 _ (by simpa using h)
    · exact hpanel (by decide)
    · exact hpanel (by decide)
    · exact hpanel (by decide)
    · exact hpanel (by decide)
    · refine if_neg fun hboth => ?_
      have hplant := (fromPlant_iff p src).mp hboth.1
      have hten : payload.length = 10 := hboth.2
      simp [hplant.1, hplant.2, hten] at h
  · exact classify_unknown p .D ⟨dst, src, kind, payload⟩ hk

/-- The event of a frame that is only forwarded. -/
theorem event_forward (x : Port) (f : Frame) (p : Part) (h : Quiet p) :
    event (forward x f) p = p.upPort (otherPort x) fun q =>
      if q.queue.length < 12 then { q with queue := q.queue ++ [f] }
      else { q with dropped := if q.dropped < 65535 then q.dropped + 1 else 65535 } := by
  obtain ⟨-, hqueue, hprogress, -, -, hU, hD⟩ := h
  have hf : forward x f ⟨p, []⟩ = ⟨p.upPort (otherPort x) fun q =>
      if q.queue.length < 12 then { q with queue := q.queue ++ [f] }
      else { q with dropped := if q.dropped < 65535 then q.dropped + 1 else 65535 }, []⟩ := by
    cases x <;> simp only [forward, otherPort, Config.forwardLimit, countDrop_eq, push, Part.port, Ev.map] <;>
      split <;> simp only [Part.upPort, *, if_true, if_false]
  refine event_idle _ _ _ hf (by simpa using hprogress) (by simpa using hqueue) ?_ ?_
  · cases x
    · exact hU
    · simp only [otherPort, Part.upPortU_portU]; split <;> exact hU
  · cases x
    · simp only [otherPort, Part.upPortD_portD]; split <;> exact hD
    · exact hD

theorem frameReceived_forward (x : Port) (dst src kind : Byte) (payload : List Byte) (s : State) (h : Quiet s.part)
    (hl : payload.length ≤ 64) (hd : dst.toNat ≤ 63) (hs : src.toNat ≤ 62)
    (hr : (s.part.port x).receiver = .receiving)
    (hc : classify s.part x ⟨dst, src, kind, payload⟩ = some .forward) :
    exec (.frameReceived x dst src kind payload (frameCrc dst src kind payload) true) s =
      .next { s with part := (setReceiver x .ready s.part).upPort (otherPort x) fun q =>
        if q.queue.length < 12 then { q with queue := q.queue ++ [⟨dst, src, kind, payload⟩] }
        else { q with dropped := if q.dropped < 65535 then q.dropped + 1 else 65535 } } := by
  have hquiet : Quiet (setReceiver x .ready s.part) := by cases x <;> exact h
  have hkept : (s.part.port x).received = [] := by
    cases x
    · exact h.2.2.2.1
    · exact h.2.2.2.2.1
  rw [exec_frameReceived x dst src kind payload _ true s h.1 hr hl,
    frameCompleted_handed x ⟨dst, src, kind, payload⟩ .forward _ hd hs hc hkept]
  exact congrArg (fun q => Host.Outcome.next { s with part := q }) (event_forward x _ _ hquiet)

/-- Settles O9. -/
theorem otherFramesAreForwardedBelowTwelve : Obligations.OtherFramesAreForwardedBelowTwelve := by
  intro dst src kind payload s h hl hd hs
  exact ⟨fun hr hc => frameReceived_forward .U dst src kind payload s h hl hd hs hr
      (classify_U_forward s.part dst src kind payload hc),
    fun hr hc => frameReceived_forward .D dst src kind payload s h hl hd hs hr
      (classify_D_forward s.part dst src kind payload hc)⟩

end Sys2Proof.Machine
end

section
/-! PROOF. A frame that is handed over in the event of its reception has the effect of the row of the table that it
spells. -/

namespace Sys2Proof.Machine

theorem nodesOk_iff (d s : Byte) : nodesOk d s = true ↔ d.toNat ≤ 63 ∧ s.toNat ≤ 62 := by
  unfold nodesOk
  rw [Bool.and_eq_true, decide_eq_true_iff, decide_eq_true_iff]
  rfl

/-- A received frame's addresses are tested before its classification (R3). -/
theorem frameCompleted_row (x : Port) (f : Frame) (c : FrameClass) (p : Part) (hc : classify p x f = some c)
    (hr : (p.port x).received = []) :
    frameCompleted x f (frameCrc f.dst f.src f.kind f.payload) true p =
      if !nodesOk f.dst f.src then countDrop x (setReceiver x .ready p)
      else event (handOne x ⟨f, c⟩) (setReceiver x .ready p) := by
  cases hn : nodesOk f.dst f.src with
  | true =>
    obtain ⟨hd, hs⟩ := (nodesOk_iff _ _).mp hn
    exact frameCompleted_handed x f c p hd hs hc hr
  | false =>
    simp only [frameCompleted, hn, Bool.not_false, Bool.true_or, if_true]

/-- The part with a port's receiver READY has handed over what it had. -/
theorem handAll_ready (x : Port) (p : Part) (hr : (p.port x).received = []) :
    handAll x (setReceiver x .ready p) = setReceiver x .ready p :=
  handAll_none _ _ (by cases x <;> exact hr)

theorem stationOf_ready (x : Port) (p : Part) (node : Byte) : stationOf (setReceiver x .ready p) node = stationOf p node := by
  cases x <;> rfl

/-- A CUT ORDER or STATION COMMAND that is handed over as it is received. -/
theorem completed_fromCell (f : Frame) (act : StationNo → Ev → Ev) (c : StationNo → FrameClass) (p : Part)
    (hr : p.portU.received = [])
    (hc : classify p .U f = intercepted (stationOf p f.dst) f f.payload.length c)
    (hact : ∀ st, handOne .U ⟨f, c st⟩ = act st) :
    frameCompleted .U f (frameCrc f.dst f.src f.kind f.payload) true p = fromCell f act (setReceiver .U .ready p) := by
  simp only [fromCell, handAll_ready .U p hr, stationOf_ready]
  cases hst : stationOf p f.dst with
  | none =>
    rw [hst] at hc
    exact frameCompleted_row .U f .forward p hc hr
  | some st =>
    rw [hst, intercepted, if_pos rfl] at hc
    rw [frameCompleted_row .U f _ p hc hr, hact]

/-- A CUT DONE that is handed over as it is received. -/
theorem completed_fromSaw (f : Frame) (act : StationNo → Ev → Ev) (c : StationNo → FrameClass) (p : Part)
    (hr : p.portD.received = [])
    (hc : classify p .D f = intercepted (stationOf p f.src) f f.payload.length c)
    (hact : ∀ st, handOne .D ⟨f, c st⟩ = act st) :
    frameCompleted .D f (frameCrc f.dst f.src f.kind f.payload) true p = fromSaw f act (setReceiver .D .ready p) := by
  simp only [fromSaw, handAll_ready .D p hr, stationOf_ready]
  cases hst : stationOf p f.src with
  | none =>
    rw [hst] at hc
    exact frameCompleted_row .D f .forward p hc hr
  | some st =>
    rw [hst, intercepted, if_pos rfl] at hc
    rw [frameCompleted_row .D f _ p hc hr, hact]

/-- An act-and-forward frame of a saw that is handed over as it is received. -/
theorem completed_throughSaw (f : Frame) (act : StationNo → Ev → Ev) (c : StationNo → FrameClass) (p : Part)
    (hr : p.portD.received = [])
    (hc : classify p .D f = actedOn (stationOf p f.src) f f.payload.length c)
    (hact : ∀ st, handOne .D ⟨f, c st⟩ = fun e => forward .D f (act st e)) :
    frameCompleted .D f (frameCrc f.dst f.src f.kind f.payload) true p = throughSaw f act (setReceiver .D .ready p) := by
  simp only [throughSaw, handAll_ready .D p hr, stationOf_ready]
  cases hst : stationOf p f.src with
  | none =>
    rw [hst] at hc
    exact frameCompleted_row .D f .forward p hc hr
  | some st =>
    rw [hst, actedOn, if_pos rfl] at hc
    rw [frameCompleted_row .D f _ p hc hr, hact]

/-- A WATER SAMPLE that is handed over as it is received. -/
theorem completed_throughPlant (f : Frame) (level : Word) (turbidity : Half) (makeup : Word) (p : Part)
    (hkind : f.kind = 0x71) (hpay : f.payload = encodeSample level turbidity makeup) (hr : p.portD.received = []) :
    frameCompleted .D f (frameCrc f.dst f.src f.kind f.payload) true p =
      throughPlant f (takeSample level.toNat turbidity.toNat makeup.toNat) (setReceiver .D .ready p) := by
  have hact : handOne .D ⟨f, .sample⟩ = fun e => forward .D f
      (reachesWbu f.src (takeSample level.toNat turbidity.toNat makeup.toNat) e) := by
    funext e
    simp only [handOne, hpay, decodeSample_encode]
  have hc : classify p .D f = if fromPlant p f.src then some .sample else some .forward := by
    have hlen : f.payload.length = 10 := by rw [hpay]; rfl
    simp only [classify, hkind, hlen, BitVec.reduceToNat, and_true]
  have hplant : fromPlant (setReceiver .D .ready p) f.src = fromPlant p f.src := rfl
  simp only [throughPlant, handAll_ready .D p hr, hplant]
  cases hf : fromPlant p f.src with
  | true =>
    rw [hf, if_pos rfl] at hc
    rw [frameCompleted_row .D f _ p hc hr, hact]
    rfl
  | false =>
    rw [hf, if_neg Bool.false_ne_true] at hc
    rw [frameCompleted_row .D f _ p hc hr]
    rfl

/-- A MANAGE REQUEST that is not the cell computer's (R8). -/
theorem completed_foreign (x : Port) (f : Frame) (p : Part) (hkind : f.kind = 0x30)
    (hok : foreignOk x f.dst f.src = true) (hr : (p.port x).received = []) :
    frameCompleted x f (frameCrc f.dst f.src f.kind f.payload) true p =
      foreignTaken x f.dst f.src (setReceiver x .ready p) := by
  have hc : classify p x f = some .foreign := by
    cases x with
    | U =>
      simp only [foreignOk, Bool.and_eq_true, decide_eq_true_eq] at hok
      obtain ⟨hdst, hsrc⟩ := hok
      simp only [classify, hkind, BitVec.reduceToNat, if_pos hdst, if_neg hsrc]
    | D => simp only [classify, hkind, BitVec.reduceToNat]
  simp only [foreignTaken, handAll_ready x p hr, hok, if_true]
  rw [frameCompleted_row x f _ p hc hr]
  rfl

/-- A MANAGE REQUEST of the cell computer is handed to MGU as it is received. -/
theorem completed_manage (payload : List Byte) (p : Part) (hr : p.portU.received = []) :
    frameCompleted .U ⟨1, 0, 0x30, payload⟩ (frameCrc 1 0 0x30 payload) true p =
      event (handRequest (decodeRequest payload)) (handAll .U (setReceiver .U .ready p)) := by
  rw [handAll_ready .U p hr]
  exact frameCompleted_handed .U ⟨1, 0, 0x30, payload⟩ .manage p (show 1 ≤ 63 by decide)
    (show 0 ≤ 62 by decide) rfl hr

/-- A frame's reception, where the row of its table acts as `act`. -/
theorem received_live (w : Wire) (s : State) (act : Part → Part) (h : s.part.inReset = false)
    (hr : (s.part.port w.port).receiver = .receiving) (hl : w.payload.length ≤ 64)
    (hact : frameCompleted w.port ⟨w.dst, w.src, w.kind, w.payload⟩ (frameCrc w.dst w.src w.kind w.payload) true s.part =
      act (setReceiver w.port .ready s.part)) :
    exec (.frameReceived w.port w.dst w.src w.kind w.payload (frameCrc w.dst w.src w.kind w.payload) true) s =
      live { s with part := setReceiver w.port .ready s.part } act := by
  rw [exec_frameReceived _ _ _ _ _ _ _ _ h hr hl, hact, live_released _ _ (by cases w.port <;> exact h)]

/-- A received request has the effect of `request`. -/
theorem received_request (payload : List Byte) (r : Request) (s : State) (hb : decodeRequest payload = r)
    (hl : payload.length ≤ 64) (h : s.part.inReset = false) (hr : s.part.portU.receiver = .receiving)
    (hk : s.part.portU.received = []) :
    exec (.frameReceived .U 1 0 0x30 payload (frameCrc 1 0 0x30 payload) true) s =
      request r { s with part := setReceiver .U .ready s.part } := by
  subst hb
  exact received_live (manageWire payload) s _ h hr hl (completed_manage payload s.part hk)

/-- A request of the table. -/
theorem received_body (tag : Byte) (b : ReqBody) (s : State) (hb : b ≠ .malformed) (h : s.part.inReset = false)
    (hr : s.part.portU.receiver = .receiving) (hk : s.part.portU.received = []) :
    exec (.frameReceived .U 1 0 0x30 (encodeRequest tag b) (frameCrc 1 0 0x30 (encodeRequest tag b)) true) s =
      request (requestOf tag b) { s with part := setReceiver .U .ready s.part } :=
  received_request _ _ s (decodeRequest_encode tag b hb) (requestsSurviveTheLine tag b hb).2 h hr hk

/-- A STATION COMMAND. -/
theorem received_command (dst src code : Byte) (s : State) (h : s.part.inReset = false)
    (hr : s.part.portU.receiver = .receiving) (hk : s.part.portU.received = []) :
    exec (.frameReceived .U dst src 0x22 [code] (frameCrc dst src 0x22 [code]) true) s =
      live { s with part := setReceiver .U .ready s.part }
        (fromCell ⟨dst, src, 0x22, [code]⟩ fun st => stationCommand st code) :=
  received_live ⟨.U, dst, src, 0x22, [code]⟩ s _ h hr (by simp)
    (completed_fromCell ⟨dst, src, 0x22, [code]⟩ _ .command s.part hk rfl fun _ => rfl)

/-- A panel frame. -/
theorem received_panel (dst src kind : Byte) (act : StationNo → Ev → Ev) (s : State)
    (hc : classify s.part .D ⟨dst, src, kind, []⟩ = actedOn (stationOf s.part src) ⟨dst, src, kind, []⟩ 0 .panel)
    (hact : ∀ st, panelFrameTaken st kind = act st) (h : s.part.inReset = false)
    (hr : s.part.portD.receiver = .receiving) (hk : s.part.portD.received = []) :
    exec (.frameReceived .D dst src kind [] (frameCrc dst src kind []) true) s =
      live { s with part := setReceiver .D .ready s.part } (throughSaw ⟨dst, src, kind, []⟩ act) :=
  received_live ⟨.D, dst, src, kind, []⟩ s _ h hr (by simp)
    (completed_throughSaw ⟨dst, src, kind, []⟩ _ .panel s.part hk hc fun st => by
      funext e; simp only [handOne, hact])

/-- Settles O6, row by row: each row is a class of R6 with its action. -/
theorem receivedFrameHasItsRowsEffect : Obligations.ReceivedFrameHasItsRowsEffect := by
  intro i w s hw hi h hr hk
  cases i with
  | foreignManage x dst src payload =>
    cases hi
    simp only [WellFormed, Bool.and_eq_true, payloadOk, decide_eq_true_eq] at hw
    obtain ⟨⟨-, hl⟩, hok⟩ := hw
    exact received_live ⟨x, dst, src, 0x30, payload⟩ s _ h hr hl 
      (completed_foreign x ⟨dst, src, 0x30, payload⟩ s.part rfl hok hk)
  | manageRequestReceived payload =>
    cases hi
    exact received_request payload _ s rfl (of_decide_eq_true hw) h hr hk
  | malformedRequest payload =>
    simp only [wireOf] at hi
    split at hi
    next hb =>
      cases hi
      refine (received_request payload _ s rfl (of_decide_eq_true hw) h hr hk).trans ?_
      exact (if_pos hb).symm
    · cases hi
  | cutOrder dst src order =>
    cases hi
    exact received_live ⟨.U, dst, src, 0x21, encodeOrder order⟩ s _ h hr (show 12 ≤ 64 by decide)
      (completed_fromCell ⟨dst, src, 0x21, encodeOrder order⟩ _ .cutOrder s.part hk rfl fun st => by
        funext e; simp only [handOne, decodeOrder_encode])
  | hold dst src | resume dst src | abort dst src | flush dst src | unknownStationCommand dst src code =>
    cases hi
    exact received_command dst src _ s h hr hk
  | panelClaim dst src | panelRelease dst src | panelStop dst src | panelResume dst src =>
    cases hi
    exact received_panel dst src _ _ s rfl (fun _ => rfl) h hr hk
  | cutPass dst src ticket pass =>
    cases hi
    exact received_live ⟨.D, dst, src, 0x62, [ticket, pass]⟩ s _ h hr (by simp)
      (completed_throughSaw ⟨dst, src, 0x62, [ticket, pass]⟩ _ .cutPass s.part hk rfl fun _ => rfl)
  | cutDone dst src ticket outcome run =>
    cases hi
    exact received_live ⟨.D, dst, src, 0x61, encodeCutDone ticket outcome run⟩ s _ h hr (show 6 ≤ 64 by decide)
      (completed_fromSaw ⟨dst, src, 0x61, encodeCutDone ticket outcome run⟩ _ .cutDone s.part hk rfl fun st => by
        funext e; simp only [handOne, decodeCutDone_encode])
  | usage dst src water energy run =>
    cases hi
    exact received_live ⟨.D, dst, src, 0x63, encodeUsage water energy run⟩ s _ h hr (show 6 ≤ 64 by decide)
      (completed_throughSaw ⟨dst, src, 0x63, encodeUsage water energy run⟩ _ .usage s.part hk rfl fun st => by
        funext e; simp only [handOne, decodeUsage_encode])
  | waterSample dst src level turbidity makeup =>
    cases hi
    exact received_live ⟨.D, dst, src, 0x71, encodeSample level turbidity makeup⟩ s _ h hr (show 10 ≤ 64 by decide)
      (completed_throughPlant ⟨dst, src, 0x71, encodeSample level turbidity makeup⟩ level turbidity makeup s.part rfl rfl hk)
  | identify | lineReset | mapRead | mapWrite | releaseStation | serviceStation | classRead
  | classWrite | pipeRead | pipeWrite | slabWrite | slabRemove | slabRead | slabScan | stockCount | lockRange | lockAll
  | lockHard | lockQuery | waterWrite | waterRead | waterState | newDay | postingWrite | postingRead | auditFreeze
  | auditThaw | jobOpen | jobClose | jobDiscard | jobRead | ratesWrite | ratesRead | noticeRead | ackAttention
  | summaryWrite | summaryRead =>
    cases hi
    exact received_body _ _ s nofun h hr hk
  | _ => cases hi

end Sys2Proof.Machine
end

section
/-! PROOF. The requests that only read (R16, R20, R64, R89, R109 to R111, R124, R130, R147, R159, R179, R191). -/

namespace Sys2Proof.Machine

/-! ### Requests answered at once -/

/-- A request whose reply has no effect is answered, and nothing changes. -/
theorem request_reads (r : Request) (s : State) (reply : Ev → Reply) (status : Status) (bytes : List Byte)
    (h : Quiet s.part) (hr : RoomU 1 s.part) (hc : ∀ e, carryOut r e = sendReply r.code r.tag (reply e))
    (hreply : reply ⟨s.part.answering r, []⟩ = ⟨⟨s.part.answering r, []⟩, status, bytes⟩) :
    request r s = .next (s.answer s.part r.code r.tag status bytes) :=
  request_report r s status bytes h hr (by rw [hc, hreply])

/-- A request whose reply changes the part to `q`, but neither MGU nor the ports. -/
theorem request_writes (r : Request) (s : State) (reply : Ev → Reply) (q : Part) (status : Status) (bytes : List Byte)
    (h : Quiet s.part) (hr : RoomU 1 s.part) (hc : ∀ e, carryOut r e = sendReply r.code r.tag (reply e))
    (hreply : reply ⟨s.part.answering r, []⟩ = ⟨⟨{ q with mgu := (s.part.answering r).mgu }, []⟩, status, bytes⟩)
    (hm : q.mgu = s.part.mgu) (hU : q.portU = s.part.portU) (hD : q.portD = s.part.portD) :
    request r s = .next (s.answer q r.code r.tag status bytes) :=
  request_effect r s q status bytes h hr (by rw [hc, hreply]) hm hU hD

/-! ### Bytes of the answers -/

theorem identifyBytes_eq (m : Mgu) :
    identifyBytes m = [0x45, 0xA7, 0x01, 0x9A, 0x01, match m.cause with | .powerUp => 0 | .warm => 1] := by
  unfold identifyBytes
  cases m.cause <;> rfl

theorem waterByte_eq (w : Wbu) :
    waterByte w = (match w.band with | .low => 0 | .makeup => 1 | .normal => 2)
      + (match w.quality with | .clear => 0 | .upset => 4)
      + (match w.freshness with | .stale => 0 | .live => 8)
      + (match w.valve with | .closed => 0 | .opened => 16) := by
  unfold waterByte
  cases w.quality <;> cases w.freshness <;> cases w.valve <;> rfl

theorem valveWaiting_none (p : Part) (h : p.portD.waiting = []) : valveWaiting p = 0 := by
  simp [valveWaiting, PortState.anyWaits, h]

/-! ### The small tables -/

theorem mapRead_station (station : Byte) (st : StationNo) (e : Ev) (h : st.val = station.toNat) :
    mapRead station e = report e (mapBytes e.p.map[st]) := by
  simp only [mapRead, index_of st h]

theorem mapRead_bad (station : Byte) (e : Ev) (h : 8 ≤ station.toNat) : mapRead station e = plain e .badValue := by
  simp only [mapRead, index_none h]

/-- Settles O14. -/
theorem readsAnswerFromTheTables : Obligations.ReadsAnswerFromTheTables := by
  intro tag s h hr
  refine ⟨?identify, ?pipe, ?rates, ?summary, ?posting, ?count, ?station, ?bad⟩
  case identify =>
    exact request_reads (requestOf tag .identify) s (fun e => report e (identifyBytes e.p.mgu)) _ _ h hr (fun _ => rfl)
      (congrArg (report _) (identifyBytes_eq _))
  case pipe => exact request_reads (requestOf tag .pipeRead) s pipeRead _ _ h hr (fun _ => rfl) rfl
  case rates => exact request_reads (requestOf tag .ratesRead) s ratesRead _ _ h hr (fun _ => rfl) rfl
  case summary => exact request_reads (requestOf tag .summaryRead) s summaryRead _ _ h hr (fun _ => rfl) rfl
  case posting => exact request_reads (requestOf tag .postingRead) s postingRead _ _ h hr (fun _ => rfl) rfl
  case count => exact request_reads (requestOf tag .stockCount) s stockCount _ _ h hr (fun _ => rfl) rfl
  case station =>
    intro st station hst
    exact request_reads (requestOf tag (.mapRead station)) s (mapRead station) _ _ h hr (fun _ => rfl)
      (mapRead_station _ _ _ hst)
  case bad =>
    intro station hst
    exact request_reads (requestOf tag (.mapRead station)) s (mapRead station) _ _ h hr (fun _ => rfl)
      (mapRead_bad _ _ hst)

/-! ### Classes, water and lock -/

theorem classRead_class (cls : Byte) (c : ClassNo) (e : Ev) (h : c.val = cls.toNat) :
    classRead cls e = report e (classBytes e.p.classes[c]) := by
  simp only [classRead, index_of c h]

theorem classRead_bad (cls : Byte) (e : Ev) (h : 4 ≤ cls.toNat) : classRead cls e = plain e .badValue := by
  simp only [classRead, index_none h]

theorem keyBytes_eq (key : Level) :
    numFlag (decide (key = .high)) = num8 (match key with | .low => 0 | .high => 1) := by
  cases key <;> rfl

theorem waterStateBytes_eq (p : Part) (h : p.portD.waiting = []) : waterStateBytes p =
    num32 p.wbu.level ++ num16 p.wbu.turbidity
      ++ num8 ((match p.wbu.band with | .low => 0 | .makeup => 1 | .normal => 2)
          + (match p.wbu.quality with | .clear => 0 | .upset => 4)
          + (match p.wbu.freshness with | .stale => 0 | .live => 8)
          + (match p.wbu.valve with | .closed => 0 | .opened => 16))
      ++ num8 0 ++ num16 p.wbu.sampleTimer.remaining ++ num32 p.wbu.allowance ++ num32 p.wbu.reserved
      ++ num32 (p.wbu.level - p.wbu.consts.lowMark - p.wbu.reserved)
      ++ num8 ((allStations.map fun st => if p.wbu.waitList[st].isSome then 2 ^ st.val else 0).sum)
      ++ num8 p.wbu.pointer.val := by
  unfold waterStateBytes
  rw [waterByte_eq, valveWaiting_none p h]
  rfl

/-- Settles O15. -/
theorem classWaterAndLockReadsAnswerTheirTables : Obligations.ClassWaterAndLockReadsAnswerTheirTables := by
  refine ⟨fun tag s h hr => ⟨fun c cls hc => ?_, fun cls hc => ?_⟩, fun tag s h hr => ?_, fun tag s h hr => ?_,
    fun tag s h hr => ⟨?_, fun hl hd => hl.2.2 hd⟩⟩
  · exact request_reads (requestOf tag (.classRead cls)) s (classRead cls) _ _ h hr (fun _ => rfl)
      (classRead_class _ _ _ hc)
  · exact request_reads (requestOf tag (.classRead cls)) s (classRead cls) _ _ h hr (fun _ => rfl)
      (classRead_bad _ _ hc)
  · exact request_reads (requestOf tag .waterRead) s waterRead _ _ h hr (fun _ => rfl) rfl
  · exact request_reads (requestOf tag .waterState) s waterState _ _ h hr (fun _ => rfl)
      (congrArg (report _) (waterStateBytes_eq _ h.2.2.2.2.2.2))
  · exact request_reads (requestOf tag .lockQuery) s lockQuery _ _ h hr (fun _ => rfl)
      (congrArg (Reply.mk _ _) (congrArg (_ ++ ·) (keyBytes_eq _)))

/-! ### Slab records -/

theorem slabRead_bad (number : Half) (e : Ev) (h : 512 ≤ number.toNat) : slabRead number e = plain e .badValue := by
  simp only [slabRead, index_none h]

theorem slabRead_free (number : Half) (n : SlabNo) (e : Ev) (h : n.val = number.toNat) (hn : e.p.stk.slabs[n] = none) :
    slabRead number e = plain e .notFound := by
  simp only [slabRead, index_of n h, hn]

theorem slabRead_used (number : Half) (n : SlabNo) (r : Slab) (e : Ev) (h : n.val = number.toNat)
    (hn : e.p.stk.slabs[n] = some r) : slabRead number e = report e (slabBytes n r) := by
  simp only [slabRead, index_of n h, hn]

theorem slabBytes_eq (n : SlabNo) (r : Slab) : slabBytes n r =
    num16 n.val ++ num8 (match r.state with | .stock => 1 | .reserved _ => 2 | .cutting _ => 3 | .doubtful => 4)
      ++ num8 r.material.val ++ num8 r.thick ++ num16 r.len ++ num16 r.wid ++ num8 r.gen
      ++ num16 (match r.parent with | some q => q.val | none => 65535)
      ++ num32 r.basis ++ num16 r.yard
      ++ (match r.state with
        | .reserved h => num8 h.station.val ++ num8 h.slot.val
        | .cutting h => num8 h.station.val ++ num8 h.slot.val
        | .stock => num8 255 ++ num8 255
        | .doubtful => num8 255 ++ num8 255) := by
  obtain ⟨state⟩ := r
  cases state <;> rfl

theorem slabScan_bad (start : Half) (e : Ev) (h : 512 ≤ start.toNat) : slabScan start e = plain e .badValue := by
  simp only [slabScan, index_none h]

theorem slabScan_none (start : Half) (e : Ev) (h : start.toNat < 512)
    (hn : ∀ m : SlabNo, start.toNat ≤ m.val → e.p.stk.slabs[m] = none) : slabScan start e = plain e .notFound := by
  have hfind : findSlab e.p.stk start.toNat Option.isSome = none := by
    unfold findSlab
    rw [List.find?_eq_none]
    intro m _
    by_cases hm : start.toNat ≤ m.val
    · simp only [hn m hm]; simp
    · simp [hm]
  simp only [slabScan, index_of (⟨start.toNat, h⟩ : SlabNo) rfl, hfind]

theorem slabScan_some (start : Half) (n : SlabNo) (r : Slab) (e : Ev) (h : start.toNat ≤ n.val)
    (hn : e.p.stk.slabs[n] = some r)
    (hfree : ∀ m : SlabNo, start.toNat ≤ m.val → m.val < n.val → e.p.stk.slabs[m] = none) :
    slabScan start e = report e (slabBytes n r) := by
  have hlt : start.toNat < 512 := Nat.lt_of_le_of_lt h n.isLt
  have hfind : findSlab e.p.stk start.toNat Option.isSome = some n := by
    refine find_finRange (n := 512) _ n ?_ fun i hi => ?_
    · simp only [h, hn, decide_true, Option.isSome_some, Bool.and_self]
    · by_cases hm : start.toNat ≤ i.val
      · simp only [hfree i hm hi, Option.isSome_none, Bool.and_false]
      · simp only [hm, decide_false, Bool.false_and]
  simp only [slabScan, index_of (⟨start.toNat, hlt⟩ : SlabNo) rfl, hfind, hn]

/-- Settles O16. -/
theorem slabReadsAnswerTheRecord : Obligations.SlabReadsAnswerTheRecord := by
  refine ⟨fun tag number s h hr => ?_, fun tag start s h hr => ?_⟩
  · have answers := fun status bytes =>
      request_reads (requestOf tag (.slabRead number)) s (slabRead number) status bytes h hr fun _ => rfl
    refine ⟨fun hbad => answers _ _ (slabRead_bad _ _ hbad), fun n hn => ⟨fun hfree => ?_, fun r hused => ?_⟩⟩
    · exact answers _ _ (slabRead_free _ n _ hn hfree)
    · exact answers _ _ ((slabRead_used _ n r _ hn hused).trans (congrArg (report _) (slabBytes_eq n r)))
  · have answers := fun status bytes =>
      request_reads (requestOf tag (.slabScan start)) s (slabScan start) status bytes h hr fun _ => rfl
    exact ⟨fun hbad => answers _ _ (slabScan_bad _ _ hbad),
      fun hlt hnone => answers _ _ (slabScan_none _ _ hlt hnone),
      fun n r hle hused hfree => answers _ _ (slabScan_some _ n r _ hle hused hfree)⟩

end Sys2Proof.Machine
end

section
/-! PROOF. The requests that write a table or move a station (R21, R23, R24, R63, R89, R105 to R108, R159, R179, R191). -/

namespace Sys2Proof.Machine

theorem ne_true_of_bnot {b : Bool} (h : b = true) : ¬(!b) = true := by simp [h]

/-! ### MAP WRITE (R21) -/

theorem mapWritable_iff (p : Part) (st : StationNo) :
    mapWritable p st = true ↔ p.stc[st].state = .service ∧ p.oqu[st].producer = p.oqu[st].consumer
      ∧ p.cpl[st].onDeck = none ∧ p.cpl[st].active = none := by
  simp only [mapWritable, Ring.isEmpty, Bool.and_eq_true, decide_eq_true_eq, Option.isNone_iff_eq_none, and_assoc]

/-- R21 step 3: the entry is mapped, and another mapped entry has its node address. -/
theorem nodeClash_iff (p : Part) (st : StationNo) (node : Nat) (c : ClassNo) (en : Bool) :
    ((⟨node, c, en⟩ : MapEntry).mapped && nodeTaken p st node) = true ↔
      node ≠ 0 ∧ en = true
        ∧ ∃ x : StationNo, x ≠ st ∧ p.map[x].node = node ∧ p.map[x].node ≠ 0 ∧ p.map[x].enabled = true := by
  simp only [MapEntry.mapped, nodeTaken, Bool.and_eq_true, decide_eq_true_eq, List.any_eq_true, and_assoc]
  refine and_congr_right fun _ => and_congr_right fun _ => exists_congr fun x => ?_
  have hx := mem_allStations x
  tauto

theorem mapWrite_bad (station node cls enabled : Byte) (e : Ev)
    (h : 8 ≤ station.toNat ∨ node.toNat = 1 ∨ 62 < node.toNat ∨ 4 ≤ cls.toNat ∨ 2 ≤ enabled.toNat) :
    mapWrite station node cls enabled e = plain e .badValue := by
  unfold mapWrite
  split
  next st c en hst hc hen =>
    have hnode : nodeOk node.toNat = false := by
      rw [← Bool.not_eq_true, nodeOk_iff]
      rcases h with h | h | h | h | h
      · rw [index_none h] at hst; cases hst
      · omega
      · omega
      · rw [index_none h] at hc; cases hc
      · rw [flagOf_none _ h] at hen; cases hen
    simp only [hnode, Bool.not_false, if_true]
  · rfl

/-- MAP WRITE with its structural checks passed. -/
theorem mapWrite_checked (station node cls enabled : Byte) (st : StationNo) (c : ClassNo) (en : Bool) (e : Ev)
    (hst : st.val = station.toNat) (hc : c.val = cls.toNat) (hen : enabled.toNat = if en then 1 else 0)
    (hnode : node.toNat = 0 ∨ (2 ≤ node.toNat ∧ node.toNat ≤ 62)) :
    mapWrite station node cls enabled e =
      if !mapWritable e.p st then plain e .inUse
      else if (⟨node.toNat, c, en⟩ : MapEntry).mapped && nodeTaken e.p st node.toNat then plain e .badValue
      else plain (e.map (writeMap st ⟨node.toNat, c, en⟩)) .done := by
  simp only [mapWrite, index_of st hst, index_of c hc, flagOf_some _ _ hen, (nodeOk_iff _).mpr hnode, Bool.not_true,
    Bool.false_eq_true, if_false]

theorem writeMap_eq (st : StationNo) (new : MapEntry) (p : Part) :
    writeMap st new p = { p with
      map := p.map.set st new
      stc := if p.map[st].node = new.node ∧ p.map[st].enabled = new.enabled then p.stc
        else p.stc.set st { p.stc[st] with owner := .cell, holds := ⟨false, false, false⟩ } } := by
  unfold writeMap
  simp only
  split
  · rfl
  · rfl

/-- Settles O17, check by check. -/
theorem mapWriteReplacesTheEntry : Obligations.MapWriteReplacesTheEntry := by
  intro tag station node cls enabled s h hr
  have answers := fun status =>
    request_reads (requestOf tag (.mapWrite station node cls enabled)) s (mapWrite station node cls enabled) status [] h hr
      fun _ => rfl
  refine ⟨fun hbad => answers _ (mapWrite_bad _ _ _ _ _ hbad), fun st c en hst hc hen hnode => ?_⟩
  have hchecked := fun e => mapWrite_checked station node cls enabled st c en e hst hc hen hnode
  refine ⟨fun hbusy => answers _ ?_, fun h1 h2 h3 h4 => ⟨fun hclash => answers _ ?_, fun hclear => ?_⟩⟩
  · have hw : mapWritable s.part st = false := by rw [← Bool.not_eq_true, mapWritable_iff]; exact hbusy
    rw [hchecked]
    exact if_pos (congrArg not hw)
  · have hw : mapWritable s.part st = true := (mapWritable_iff _ _).mpr ⟨h1, h2, h3, h4⟩
    rw [hchecked]
    exact (if_neg (ne_true_of_bnot hw)).trans (if_pos ((nodeClash_iff s.part st _ c en).mpr hclash))
  · have hw : mapWritable s.part st = true := (mapWritable_iff _ _).mpr ⟨h1, h2, h3, h4⟩
    refine request_writes (requestOf tag (.mapWrite station node cls enabled)) s (mapWrite station node cls enabled) _ .done
      [] h hr (fun _ => rfl) ?_ rfl rfl rfl
    rw [hchecked]
    refine (if_neg (ne_true_of_bnot hw)).trans ((if_neg fun hc => hclear ((nodeClash_iff s.part st _ c en).mp hc)).trans ?_)
    exact congrArg (fun q => plain ⟨q, []⟩ .done) (writeMap_eq st _ _)

/-! ### RELEASE STATION and SERVICE STATION (R23, R24) -/

theorem mapped_iff (m : MapEntry) : m.mapped = true ↔ m.node ≠ 0 ∧ m.enabled = true := by
  simp [MapEntry.mapped]

theorem releaseStation_bad (station : Byte) (e : Ev) (h : 8 ≤ station.toNat) :
    releaseStation station e = plain e .badValue := by
  simp only [releaseStation, index_none h]

theorem releaseStation_eq (station : Byte) (st : StationNo) (e : Ev) (h : st.val = station.toNat) :
    releaseStation station e =
      if !e.p.map[st].mapped then plain e .badValue
      else if e.p.stc[st].state = .service then
        plain (((e.map fun p => p.upStc st fun c => { c with state := .idle }).later (.claim st)).later (.station st)) .done
      else plain e .done := by
  simp only [releaseStation, index_of st h]

theorem serviceStation_bad (station : Byte) (e : Ev) (h : 8 ≤ station.toNat) :
    serviceStation station e = plain e .badValue := by
  simp only [serviceStation, index_none h]

theorem serviceStation_eq (station : Byte) (st : StationNo) (e : Ev) (h : st.val = station.toNat) :
    serviceStation station e =
      if e.p.cpl[st].active.isSome then plain e .inUse
      else if e.p.stc[st].state = .idle then plain (e.map fun p => p.upStc st fun c => { c with state := .service }) .done
      else plain e .done := by
  simp only [serviceStation, index_of st h]

/-- The examinations of a station with nothing due find nothing. -/
theorem examinations_none (st : StationNo) (p : Part) (h : NoneDue p st) :
    ∀ t ∈ [Task.claim st, Task.station st], ∀ rest, runTask t ⟨p, rest⟩ = ⟨p, rest⟩ := by
  intro t ht rest
  simp only [List.mem_cons, List.not_mem_nil, or_false] at ht
  rcases ht with rfl | rfl
  · exact examineClaim_none st _ h.1
  · exact examineStation_none st _ h

/-- Settles O18. -/
theorem releaseAndServiceMoveAStation : Obligations.ReleaseAndServiceMoveAStation := by
  intro tag station s h hr
  have releases := fun status =>
    request_reads (requestOf tag (.releaseStation station)) s (releaseStation station) status [] h hr fun _ => rfl
  have services := fun status =>
    request_reads (requestOf tag (.serviceStation station)) s (serviceStation station) status [] h hr fun _ => rfl
  refine ⟨fun hbad => ⟨releases _ (releaseStation_bad _ _ hbad), services _ (serviceStation_bad _ _ hbad)⟩,
    fun st hst => ?_⟩
  have hrelease := fun e => releaseStation_eq station st e hst
  have hservice := fun e => serviceStation_eq station st e hst
  have hmapped : s.part.map[st].node ≠ 0 → s.part.map[st].enabled = true → s.part.map[st].mapped = true :=
    fun h1 h2 => (mapped_iff _).mpr ⟨h1, h2⟩
  refine ⟨fun hun => releases _ ?unmapped, fun h1 h2 hs => releases _ ?outside, fun h1 h2 hs hdue => ?released,
    fun ha => services _ ?active, fun ha => ?service⟩
  case unmapped =>
    have hm : s.part.map[st].mapped = false := by
      rw [← Bool.not_eq_true, mapped_iff]
      rintro ⟨h1, h2⟩
      rcases hun with h3 | h3
      · exact h1 h3
      · rw [h2] at h3; cases h3
    rw [hrelease]
    exact if_pos (congrArg not hm)
  case outside =>
    rw [hrelease]
    exact (if_neg (ne_true_of_bnot (hmapped h1 h2))).trans (if_neg hs)
  case released =>
    refine request_examined (requestOf tag (.releaseStation station)) s
      { s.part with stc := s.part.stc.set st { s.part.stc[st] with state := .idle } } [.claim st, .station st] .done [] h hr
      ?_ rfl rfl rfl (show 2 ≤ 8192 by decide) (examinations_none st _ hdue)
    refine congrArg (sendReply _ _) ((hrelease _).trans ?_)
    exact (if_neg (ne_true_of_bnot (hmapped h1 h2))).trans (if_pos hs)
  case active =>
    rw [hservice]
    exact if_pos (Option.isSome_iff_ne_none.mpr ha)
  case service =>
    have hidle : ¬s.part.cpl[st].active.isSome = true := by simpa using ha
    by_cases hs : s.part.stc[st].state = .idle
    · simp only [hs, if_true]
      refine request_writes (requestOf tag (.serviceStation station)) s (serviceStation station)
        { s.part with stc := s.part.stc.set st { s.part.stc[st] with state := .service } } .done [] h hr (fun _ => rfl) ?_
        rfl rfl rfl
      rw [hservice]
      exact (if_neg hidle).trans (if_pos hs)
    · simp only [hs, if_false]
      refine services _ ?_
      rw [hservice]
      exact (if_neg hidle).trans (if_neg hs)

end Sys2Proof.Machine
end

section
/-! PROOF. The writes that clamp (R15, R63, R89, R159, R179, R191) and the two requests that change a slab record (R105
to R108). -/

namespace Sys2Proof.Machine

/-! ### Tables (R15) -/

/-- R15 step 2 for a field whose lowest value is 0. -/
theorem clamp_zero (hi x : Nat) : clamp 0 hi x = min hi x := by
  rw [clamp_eq _ _ _ (Nat.zero_le _)]; omega

theorem classOf_eq (f : ClassFields) : (classOf f).1 =
    ⟨max 1 (min 10 f.kerf.toNat), max 5 (min 40 f.depth.toNat), max 1 (min 2000 f.flow.toNat),
      #v[max 1 (min 200 f.feed0.toNat), max 1 (min 200 f.feed1.toNat), max 1 (min 200 f.feed2.toNat),
        max 1 (min 200 f.feed3.toNat), max 1 (min 200 f.feed4.toNat), max 1 (min 200 f.feed5.toNat),
        max 1 (min 200 f.feed6.toNat), max 1 (min 200 f.feed7.toNat)],
      max 100 (min 2000 f.lmin.toNat), max 50 (min 1000 f.wmin.toNat)⟩ := by
  have h : ∀ lo hi x, lo ≤ hi → max lo (min hi x) = clamp lo hi x := fun lo hi x hle => (clamp_eq lo hi x hle).symm
  rw [h 1 10 _ (by decide), h 5 40 _ (by decide), h 1 2000 _ (by decide), h 100 2000 _ (by decide),
    h 50 1000 _ (by decide)]
  simp only [h 1 200 _ (by decide)]
  rfl

theorem any_outside_iff (lo hi : Nat) (l : List Byte) :
    (l.map BitVec.toNat).any (outside lo hi) = true ↔ ¬∀ x ∈ l, lo ≤ x.toNat ∧ x.toNat ≤ hi := by
  simp only [List.any_map, List.any_eq_true, Function.comp_apply, outside_iff]
  push Not
  rfl

theorem classOf_clamped (f : ClassFields) : (classOf f).2 = true ↔
    ¬((1 ≤ f.kerf.toNat ∧ f.kerf.toNat ≤ 10) ∧ (5 ≤ f.depth.toNat ∧ f.depth.toNat ≤ 40)
      ∧ (1 ≤ f.flow.toNat ∧ f.flow.toNat ≤ 2000)
      ∧ (∀ x ∈ [f.feed0, f.feed1, f.feed2, f.feed3, f.feed4, f.feed5, f.feed6, f.feed7], 1 ≤ x.toNat ∧ x.toNat ≤ 200)
      ∧ (100 ≤ f.lmin.toNat ∧ f.lmin.toNat ≤ 2000) ∧ (50 ≤ f.wmin.toNat ∧ f.wmin.toNat ≤ 1000)) := by
  simp only [classOf, Bool.or_eq_true, any_outside_iff, outside_iff]
  tauto

theorem pipeOf_eq (percent grace : Half) (stop : Byte) : (pipeOf percent grace stop).1 =
    ⟨max 110 (min 400 percent.toNat), min 600 grace.toNat, max 1 (min 60 stop.toNat)⟩ := by
  simp only [pipeOf, clamp_zero, clamp_eq 110 400 _ (by decide), clamp_eq 1 60 _ (by decide)]

theorem pipeOf_clamped (percent grace : Half) (stop : Byte) : (pipeOf percent grace stop).2 = true ↔
    ¬((110 ≤ percent.toNat ∧ percent.toNat ≤ 400) ∧ grace.toNat ≤ 600 ∧ (1 ≤ stop.toNat ∧ stop.toNat ≤ 60)) := by
  simp only [pipeOf, Bool.or_eq_true, outside_iff]
  omega

theorem ratesOf_eq (water run : Word) (energy : Half) : (ratesOf water run energy).1 =
    (min 100000 water.toNat, min 100000 run.toNat, min 10000 energy.toNat) := by
  simp only [ratesOf, clamp_zero]

theorem ratesOf_clamped (water run : Word) (energy : Half) : (ratesOf water run energy).2 = true ↔
    ¬(water.toNat ≤ 100000 ∧ run.toNat ≤ 100000 ∧ energy.toNat ≤ 10000) := by
  simp only [ratesOf, Bool.or_eq_true, outside_iff]
  omega

theorem postingOf_eq (period : Byte) (limit : Half) :
    (postingOf period limit).1 = (max 1 period.toNat, max 1 (min 600 limit.toNat)) := by
  have hperiod := period.isLt
  simp only [postingOf, clamp_eq 1 255 _ (by decide), clamp_eq 1 600 _ (by decide), Prod.mk.injEq, and_true]
  omega

theorem postingOf_clamped (period : Byte) (limit : Half) : (postingOf period limit).2 = true ↔
    ¬(1 ≤ period.toNat ∧ (1 ≤ limit.toNat ∧ limit.toNat ≤ 600)) := by
  have hperiod := period.isLt
  simp only [postingOf, Bool.or_eq_true, outside_iff]
  omega

theorem setPeriod_eq (period : Byte) (u : Ntu) : setPeriod (clamp 0 100 period.toNat) u =
    { u with
      period := min 100 period.toNat
      timer := if period.toNat = 0 then .stopped
        else if u.period = 0 then .running (min 100 period.toNat * 100) else u.timer } := by
  rw [clamp_zero]
  by_cases h : period.toNat = 0
  · simp [setPeriod, h]
  · have hmin : min 100 period.toNat ≠ 0 := by omega
    by_cases hu : u.period = 0
    · simp only [setPeriod, summaryTimer, hmin, h, hu, if_true, if_false]
    · simp only [setPeriod, hmin, h, hu, if_false]

/-- A table write: its value and whether it was clamped, from the facts about both. -/
theorem request_table (r : Request) (s : State) (reply : Ev → Reply) (q : Part) (clamped : Bool) (inRange : Prop)
    [Decidable inRange] (h : Quiet s.part) (hr : RoomU 1 s.part)
    (hc : ∀ e, carryOut r e = sendReply r.code r.tag (reply e))
    (hreply : reply ⟨s.part.answering r, []⟩ =
      plain ⟨{ q with mgu := (s.part.answering r).mgu }, []⟩ (writeStatus clamped))
    (hclamped : clamped = true ↔ ¬inRange)
    (hm : q.mgu = s.part.mgu) (hU : q.portU = s.part.portU) (hD : q.portD = s.part.portD) :
    request r s = .next (s.answer q r.code r.tag (if inRange then .done else .clamped) []) := by
  rw [← writeStatus_eq _ _ hclamped]
  exact request_writes r s reply q _ [] h hr hc hreply hm hU hD

/-- Settles O19. -/
theorem tableWritesClampAndReplace : Obligations.TableWritesClampAndReplace := by
  refine ⟨fun tag cls f s h hr => ⟨fun hbad => ?_, fun c hc => ?_⟩, fun tag s h hr =>
    ⟨fun percent grace stop => ?_, fun water run energy => ?_, fun period limit => ?_, fun period => ?_⟩⟩
  · exact request_reads (requestOf tag (.classWrite cls f)) s (classWrite cls f) _ _ h hr (fun _ => rfl)
      (by simp only [classWrite, index_none hbad]; rfl)
  · rw [← classOf_eq]
    refine request_table (requestOf tag (.classWrite cls f)) s (classWrite cls f) _ (classOf f).2 _ h hr (fun _ => rfl) ?_
      (classOf_clamped f) rfl rfl rfl
    simp only [classWrite, index_of c hc]
    rfl
  · rw [← pipeOf_eq]
    exact request_table (requestOf tag (.pipeWrite percent grace stop)) s (pipeWrite percent grace stop) _ _ _ h hr
      (fun _ => rfl) rfl (pipeOf_clamped percent grace stop) rfl rfl rfl
  · have hv := ratesOf_eq water run energy
    refine request_table (requestOf tag (.ratesWrite water run energy)) s (ratesWrite water run energy) _ _ _ h hr
      (fun _ => rfl) ?_ (ratesOf_clamped water run energy) rfl rfl rfl
    simp only [ratesWrite, hv]
    rfl
  · have hv := postingOf_eq period limit
    refine request_table (requestOf tag (.postingWrite period limit)) s (postingWrite period limit) _ _ _ h hr
      (fun _ => rfl) ?_ (postingOf_clamped period limit) rfl rfl rfl
    simp only [postingWrite, hv]
    rfl
  · refine request_table (requestOf tag (.summaryWrite period)) s (summaryWrite period) _ (outside 0 100 period.toNat) _ h
      hr (fun _ => rfl) ?_ (by rw [outside_iff]; omega) rfl rfl rfl
    simp only [summaryWrite, Ev.map, Part.upNtu, setPeriod_eq]
    rfl

/-! ### Slab records -/

theorem parentOf_none (x : Half) (h : 512 ≤ x.toNat) (h2 : x.toNat ≠ 65535) : parentOf x = none := by
  simp [parentOf, h2, index_none h]

theorem parentOf_some (x : Half) (parent : Option SlabNo)
    (h : x.toNat = match parent with | some q => q.val | none => 65535) : parentOf x = some parent := by
  cases parent with
  | none => simp [parentOf, h]
  | some q =>
    have hne : x.toNat ≠ 65535 := by have := q.isLt; simp only at h; omega
    simp [parentOf, hne, index_of q h.symm]

theorem slabWrite_bad (f : SlabFields) (e : Ev)
    (h : 512 ≤ f.number.toNat ∨ 2 ≤ f.createOnly.toNat ∨ 8 ≤ f.material.toNat
      ∨ (512 ≤ f.parent.toNat ∧ f.parent.toNat ≠ 65535)) : slabWrite f e = plain e .badValue := by
  unfold slabWrite
  split
  next hn hcreate hmat hpar =>
    rcases h with h | h | h | ⟨h, h2⟩
    · rw [index_none h] at hn; cases hn
    · rw [flagOf_none _ h] at hcreate; cases hcreate
    · rw [index_none h] at hmat; cases hmat
    · rw [parentOf_none _ h h2] at hpar; cases hpar
  · rfl

theorem isHeld_iff (r : Slab) : r.isHeld = true ↔ (∃ h, r.state = .reserved h) ∨ ∃ h, r.state = .cutting h := by
  unfold Slab.isHeld
  cases r.state <;> simp

theorem isHeld_false (r : Slab) (h : r.state = .stock ∨ r.state = .doubtful) : r.isHeld = false := by
  unfold Slab.isHeld
  rcases h with h | h <;> rw [h]

theorem slabOf_clamped (f : SlabFields) (m : Material) (parent : Option SlabNo) : (slabOf f m parent).2 = true ↔
    ¬((10 ≤ f.thickness.toNat ∧ f.thickness.toNat ≤ 80) ∧ (100 ≤ f.len.toNat ∧ f.len.toNat ≤ 4000)
      ∧ (100 ≤ f.wid.toNat ∧ f.wid.toNat ≤ 2200) ∧ f.generation.toNat ≤ 3 ∧ f.basis.toNat ≤ 10000000) := by
  simp only [slabOf, Bool.or_eq_true, outside_iff]
  omega

theorem slabOf_eq (f : SlabFields) (m : Material) (parent : Option SlabNo) : (slabOf f m parent).1 =
    ⟨.stock, m, max 10 (min 80 f.thickness.toNat), max 100 (min 4000 f.len.toNat), max 100 (min 2200 f.wid.toNat),
      min 3 f.generation.toNat, parent, min 10000000 f.basis.toNat, f.yard.toNat⟩ := by
  simp only [slabOf, clamp_zero, clamp_eq 10 80 _ (by decide), clamp_eq 100 4000 _ (by decide),
    clamp_eq 100 2200 _ (by decide)]

/-- R105 step 4. -/
theorem slabCrossOk_iff (n : SlabNo) (f : SlabFields) (m : Material) (parent : Option SlabNo) :
    slabCrossOk n (slabOf f m parent).1 = true ↔ ¬((f.generation.toNat = 0 ∧ parent ≠ none) ∨ parent = some n) := by
  rw [slabOf_eq]
  simp only [slabCrossOk, Bool.and_eq_true, Bool.or_eq_true, decide_eq_true_eq, Option.isNone_iff_eq_none]
  have hgen : min 3 f.generation.toNat ≠ 0 ↔ f.generation.toNat ≠ 0 := by omega
  rw [hgen]
  tauto

section SlabWrite
variable (f : SlabFields) (n : SlabNo) (createOnly : Bool) (m : Material) (parent : Option SlabNo) (e : Ev)
  (hn : n.val = f.number.toNat) (hcreate : f.createOnly.toNat = if createOnly then 1 else 0)
  (hm : m.val = f.material.toNat) (hparent : f.parent.toNat = match parent with | some q => q.val | none => 65535)
include hn hcreate hm hparent

theorem slabWrite_refused (status : Status) (h : slabWriteRefused e.p.stk e.p.lck n createOnly = some status) :
    slabWrite f e = plain e status := by
  simp only [slabWrite, index_of n hn, index_of m hm, flagOf_some _ _ hcreate, parentOf_some _ _ hparent, h]

theorem slabWrite_passes (h : slabWriteRefused e.p.stk e.p.lck n createOnly = none) : slabWrite f e =
    if slabCrossOk n (slabOf f m parent).1 then
      ⟨e.map fun p => p.upSlab n fun _ => some (slabOf f m parent).1, writeStatus (slabOf f m parent).2,
        slabBytes n (slabOf f m parent).1⟩
    else plain e .badValue := by
  simp only [slabWrite, index_of n hn, index_of m hm, flagOf_some _ _ hcreate, parentOf_some _ _ hparent, h]

theorem slabWrite_cross (h : slabWriteRefused e.p.stk e.p.lck n createOnly = none)
    (hx : (f.generation.toNat = 0 ∧ parent ≠ none) ∨ parent = some n) : slabWrite f e = plain e .badValue := by
  rw [slabWrite_passes f n createOnly m parent e hn hcreate hm hparent h]
  exact if_neg fun hok => (slabCrossOk_iff n f m parent).mp hok hx

theorem slabWrite_stored (h : slabWriteRefused e.p.stk e.p.lck n createOnly = none)
    (hx : ¬((f.generation.toNat = 0 ∧ parent ≠ none) ∨ parent = some n)) : slabWrite f e =
      ⟨e.map fun p => p.upSlab n fun _ => some (slabOf f m parent).1, writeStatus (slabOf f m parent).2,
        slabBytes n (slabOf f m parent).1⟩ := by
  rw [slabWrite_passes f n createOnly m parent e hn hcreate hm hparent h]
  exact if_pos ((slabCrossOk_iff n f m parent).mpr hx)

end SlabWrite

theorem slabWriteRefused_held (k : Stk) (l : Lck) (n : SlabNo) (createOnly : Bool) (r : Slab) (h : k.slabs[n] = some r)
    (hr : (∃ h, r.state = .reserved h) ∨ (∃ h, r.state = .cutting h) ∨ createOnly = true) :
    slabWriteRefused k l n createOnly = some .inUse := by
  simp only [slabWriteRefused, h]
  by_cases hheld : r.isHeld = true
  · simp [hheld]
  · have hcreate : createOnly = true := by
      rw [isHeld_iff] at hheld
      tauto
    simp [hcreate]

theorem slabWriteRefused_loose (k : Stk) (l : Lck) (n : SlabNo) (r : Slab) (h : k.slabs[n] = some r)
    (hr : r.state = .stock ∨ r.state = .doubtful) :
    slabWriteRefused k l n false = if cuttable l n.val then none else some .slabLocked := by
  simp only [slabWriteRefused, h, isHeld_false r hr, Bool.false_eq_true, if_false]

theorem slabWriteRefused_free (k : Stk) (l : Lck) (n : SlabNo) (createOnly : Bool) (h : k.slabs[n] = none) :
    slabWriteRefused k l n createOnly = if usedCount k + k.reservations < 512 then none else some .recordsFull := by
  simp only [slabWriteRefused, h]
  rfl

theorem slabRemove_bad (number : Half) (e : Ev) (h : 512 ≤ number.toNat) : slabRemove number e = plain e .badValue := by
  simp only [slabRemove, index_none h]

theorem slabRemove_free (number : Half) (n : SlabNo) (e : Ev) (h : n.val = number.toNat)
    (hn : e.p.stk.slabs[n] = none) : slabRemove number e = plain e .notFound := by
  simp only [slabRemove, index_of n h, hn]

theorem slabRemove_used (number : Half) (n : SlabNo) (r : Slab) (e : Ev) (h : n.val = number.toNat)
    (hn : e.p.stk.slabs[n] = some r) : slabRemove number e =
      if r.isHeld then plain e .inUse
      else if !cuttable e.p.lck n.val then plain e .slabLocked
      else plain (e.map fun p => p.upSlab n fun _ => none) .done := by
  simp only [slabRemove, index_of n h, hn]

/-- Settles O20: SLAB WRITE is refused by the state of the record or stores it; SLAB REMOVE likewise frees it. -/
theorem slabWriteAndRemoveChangeOneRecord : Obligations.SlabWriteAndRemoveChangeOneRecord := by
  refine ⟨fun tag f s h hr => ?_, fun tag number s h hr => ?_⟩
  · have answers := fun status =>
      request_reads (requestOf tag (.slabWrite f)) s (slabWrite f) status [] h hr fun _ => rfl
    refine ⟨fun hbad => answers _ (slabWrite_bad f _ hbad), fun n createOnly m parent hn hcreate hm hparent => ?_⟩
    have refused := fun status hs => answers status (slabWrite_refused f n createOnly m parent _ hn hcreate hm hparent status hs)
    refine ⟨fun r hrec hstate => refused _ (slabWriteRefused_held _ _ n createOnly r hrec hstate), ?locked, ?full, ?passes⟩
    case locked =>
      rintro r hrec hstate rfl hcut
      exact refused _ ((slabWriteRefused_loose _ _ n r hrec hstate).trans (if_neg (Bool.not_eq_true _ ▸ hcut)))
    case full =>
      intro hrec hfull
      exact refused _ ((slabWriteRefused_free _ _ n createOnly hrec).trans (if_neg (Nat.not_lt.mpr hfull)))
    case passes =>
      intro hpass
      have hnone : slabWriteRefused s.part.stk s.part.lck n createOnly = none := by
        rcases hpass with ⟨hrec, hroom⟩ | ⟨rfl, hcut, r, hrec, hstate⟩
        · exact (slabWriteRefused_free _ _ n createOnly hrec).trans (if_pos hroom)
        · exact (slabWriteRefused_loose _ _ n r hrec hstate).trans (if_pos hcut)
      refine ⟨fun hx => answers _ (slabWrite_cross f n createOnly m parent _ hn hcreate hm hparent hnone hx), ?_⟩
      rintro hx r rfl
      rw [← slabOf_eq, ← writeStatus_eq _ _ (slabOf_clamped f m parent)]
      exact request_writes (requestOf tag (.slabWrite f)) s (slabWrite f) _ _ _ h hr (fun _ => rfl)
        (slabWrite_stored f n createOnly m parent _ hn hcreate hm hparent hnone hx) rfl rfl rfl
  · have answers := fun status =>
      request_reads (requestOf tag (.slabRemove number)) s (slabRemove number) status [] h hr fun _ => rfl
    refine ⟨fun hbad => answers _ (slabRemove_bad _ _ hbad), fun n hn =>
      ⟨fun hfree => answers _ (slabRemove_free _ n _ hn hfree), fun r hrec => ?_⟩⟩
    have hused := fun e he => slabRemove_used number n r e hn he
    refine ⟨fun hheld => answers _ ?_, fun hloose => ⟨fun hcut => answers _ ?_, fun hcut => ?_⟩⟩
    · exact (hused _ hrec).trans (if_pos ((isHeld_iff r).mpr hheld))
    · refine (hused _ hrec).trans ((if_neg (by simp [isHeld_false r hloose])).trans (if_pos (congrArg not hcut)))
    · refine request_writes (requestOf tag (.slabRemove number)) s (slabRemove number) _ _ _ h hr (fun _ => rfl)
        ?_ rfl rfl rfl
      exact (hused _ hrec).trans ((if_neg (by simp [isHeld_false r hloose])).trans (if_neg (ne_true_of_bnot hcut)))

end Sys2Proof.Machine
end

section
/-! PROOF. The hard lock and its key (R123, R125, R126), the requests that move a job (R173 to R176), and notices,
attentions and summaries (R185 to R192). -/

namespace Sys2Proof.Machine

/-! ### The hard lock -/

theorem lockHard_disabled (e : Ev) (h : e.p.lck.disabled = true) : lockHard e = lockReply e .lockDisabled := by
  simp [lockHard, h]

theorem lockHard_enabled (e : Ev) (h : e.p.lck.disabled = false) :
    lockHard e = lockReply (e.map fun p => p.upLck fun l => { l with hard := true }) .done := by
  simp [lockHard, h]

theorem keyCounted_running (p : Part) (n : Nat) (h : p.lck.settle = .running n) :
    keyCounted p = p.upLck (settleOver p.yardkey) := by
  simp only [keyCounted, h]

/-- Settles O23. -/
theorem hardLockUntilTheKeyTurns : Obligations.HardLockUntilTheKeyTurns := by
  refine ⟨fun tag s h hr => ⟨fun hd => ?_, ?_⟩, fun level s => rfl, fun s n h => ⟨fun hs => ?_, fun hs hk => ?_,
    fun hs hk hh => ?_, fun hs hk hh => ?_⟩⟩
  · exact request_lockReply (requestOf tag .lockHard) s s.part.lck .lockDisabled h hr
      (congrArg (sendReply _ _) (lockHard_disabled _ hd))
  · rintro hd l rfl
    exact request_lockReply (requestOf tag .lockHard) s _ .done h hr (congrArg (sendReply _ _) (lockHard_enabled _ hd))
  · exact (live_released s _ h).trans (by simp only [keyCounted, hs])
  · exact (live_released s _ h).trans (by
      simp only [keyCounted_running _ n hs, Part.upLck, settleOver, if_pos hk])
  · exact (live_released s _ h).trans (by
      simp only [keyCounted_running _ n hs, Part.upLck, settleOver, if_neg hk, countKey, hh, if_true, Lck.emptied])
  · exact (live_released s _ h).trans (by
      simp only [keyCounted_running _ n hs, Part.upLck, settleOver, if_neg hk, countKey, hh, Bool.false_eq_true, if_false])

/-! ### Jobs -/

/-- A request answered with the job that it leaves. -/
theorem request_jobReply (r : Request) (s : State) (reply : Ev → Reply) (n : JobNo) (j : Job) (status : Status)
    (h : Quiet s.part) (hr : RoomU 1 s.part) (hc : ∀ e, carryOut r e = sendReply r.code r.tag (reply e))
    (hreply : reply ⟨s.part.answering r, []⟩ =
      jobReply n ⟨(s.part.answering r).upJob n fun _ => j, []⟩ status) :
    request r s = .next (s.answer { s.part with jau := { s.part.jau with jobs := s.part.jau.jobs.set n j } } r.code r.tag
      status (jobBytes j)) := by
  refine request_writes r s reply _ status _ h hr hc (hreply.trans ?_) rfl rfl rfl
  simp only [jobReply, Part.upJob_jau, upd_same]
  rfl

section Jobs
variable (job : Byte) (n : JobNo) (e : Ev) (h : n.val = job.toNat)

theorem jobOpen_bad (reference : Word) (h : 64 ≤ job.toNat) : jobOpen job reference e = plain e .badValue := by
  simp only [jobOpen, index_none h]

theorem jobClose_bad (h : 64 ≤ job.toNat) : jobClose job e = plain e .badValue := by
  simp only [jobClose, index_none h]

theorem jobDiscard_bad (h : 64 ≤ job.toNat) : jobDiscard job e = plain e .badValue := by
  simp only [jobDiscard, index_none h]

include h

theorem jobOpen_eq (reference : Word) : jobOpen job reference e =
    if n = 0 then jobReply n e .jobState
    else if e.p.psu.freeze = .frozen then jobReply n e .frozen
    else if e.p.jau.jobs[n].state = .free ∨ e.p.jau.jobs[n].state = .closed then
      jobReply n (e.map fun p => p.upJob n (Job.openWith reference.toNat)) .done
    else jobReply n e .jobState := by
  simp only [jobOpen, index_of n h]

theorem jobClose_eq : jobClose job e =
    if n = 0 then jobReply n e .jobState
    else if e.p.jau.jobs[n].state = .opened then
      jobReply n (e.map fun p => p.upJob n fun j => Job.settled { j with state := .closing }) .done
    else jobReply n e .jobState := by
  simp only [jobClose, index_of n h]

theorem jobDiscard_eq : jobDiscard job e =
    if n = 0 then jobReply n e .jobState
    else if e.p.psu.freeze = .frozen then jobReply n e .frozen
    else if e.p.jau.jobs[n].state = .closed then jobReply n (e.map fun p => p.upJob n fun _ => .free) .done
    else jobReply n e .jobState := by
  simp only [jobDiscard, index_of n h]

end Jobs

/-- R172: a job that JOB CLOSE finds with both counts 0 is CLOSED at once. -/
theorem settled_closing (j : Job) : Job.settled { j with state := .closing } =
    { j with state := if j.outstanding = 0 ∧ j.pending = 0 then .closed else .closing } := by
  by_cases h : j.outstanding = 0 ∧ j.pending = 0
  · simp [Job.settled, h]
  · simp only [Job.settled, true_and, if_neg h]

/-- Settles O24: each request by its checks, in their order. -/
theorem jobRequestsMoveOneJob : Obligations.JobRequestsMoveOneJob := by
  intro tag job reference s h hr
  have opens := fun status bytes => request_reads (requestOf tag (.jobOpen job reference)) s (jobOpen job reference) status
    bytes h hr fun _ => rfl
  have closes := fun status bytes => request_reads (requestOf tag (.jobClose job)) s (jobClose job) status bytes h hr
    fun _ => rfl
  have discards := fun status bytes => request_reads (requestOf tag (.jobDiscard job)) s (jobDiscard job) status bytes h hr
    fun _ => rfl
  refine ⟨fun hbad => ⟨opens _ _ (jobOpen_bad job _ reference hbad), closes _ _ (jobClose_bad job _ hbad),
    discards _ _ (jobDiscard_bad job _ hbad)⟩, fun n hn => ⟨?_, ?_⟩⟩
  · rintro j q rfl rfl
    have hzero : n.val = 0 → n = 0 := fun e => Fin.ext e
    have hnonzero : n.val ≠ 0 → n ≠ 0 := fun hne e => hne (congrArg Fin.val e)
    refine ⟨?openState, ?openFrozen, ?closeState, ?discardState, ?discardFrozen⟩
    case openState =>
      refine fun hcase => opens _ _ ((jobOpen_eq job n _ hn reference).trans ?_)
      rcases hcase with h0 | ⟨hf, h1, h2⟩
      · exact if_pos (hzero h0)
      · by_cases h0 : n = 0
        · exact if_pos h0
        · exact (if_neg h0).trans ((if_neg hf).trans (if_neg (not_or.mpr ⟨h1, h2⟩)))
    case openFrozen =>
      exact fun h0 hf => opens _ _ ((jobOpen_eq job n _ hn reference).trans ((if_neg (hnonzero h0)).trans (if_pos hf)))
    case closeState =>
      refine fun hcase => closes _ _ ((jobClose_eq job n _ hn).trans ?_)
      by_cases h0 : n = 0
      · exact if_pos h0
      · exact (if_neg h0).trans (if_neg (hcase.resolve_left fun e => h0 (hzero e)))
    case discardState =>
      refine fun hcase => discards _ _ ((jobDiscard_eq job n _ hn).trans ?_)
      by_cases h0 : n = 0
      · exact if_pos h0
      · obtain ⟨hf, hs⟩ := hcase.resolve_left fun e => h0 (hzero e)
        exact (if_neg h0).trans ((if_neg hf).trans (if_neg hs))
    case discardFrozen =>
      exact fun h0 hf => discards _ _ ((jobDiscard_eq job n _ hn).trans ((if_neg (hnonzero h0)).trans (if_pos hf)))
  · rintro j q h0 rfl
    have hne : n ≠ 0 := fun e => h0 (congrArg Fin.val e)
    refine ⟨fun hf hs hj => ?_, fun hs hj => ?_, fun hf hs hj => ?_⟩
    · refine request_jobReply (requestOf tag (.jobOpen job reference)) s (jobOpen job reference) n j .done h hr
        (fun _ => rfl) ((jobOpen_eq job n _ hn reference).trans ?_)
      refine (if_neg hne).trans ((if_neg hf).trans ((if_pos hs).trans ?_))
      rw [hj]; rfl
    · refine request_jobReply (requestOf tag (.jobClose job)) s (jobClose job) n j .done h hr (fun _ => rfl)
        ((jobClose_eq job n _ hn).trans ?_)
      refine (if_neg hne).trans ((if_pos hs).trans ?_)
      rw [hj, ← settled_closing]; rfl
    · refine request_jobReply (requestOf tag (.jobDiscard job)) s (jobDiscard job) n j .done h hr (fun _ => rfl)
        ((jobDiscard_eq job n _ hn).trans ?_)
      refine (if_neg hne).trans ((if_neg hf).trans ((if_pos hs).trans ?_))
      rw [hj]; rfl

end Sys2Proof.Machine
end

section
/-! PROOF. JOB READ's two segments (R176, R204), notices and attentions (R186 to R190), and the LINE SUMMARY (R191,
R192). -/

namespace Sys2Proof.Machine

/-! ### JOB READ -/

/-- A request that leaves the part at rest in its own event. -/
theorem request_done (r : Request) (s : State) (q : Part) (h : Quiet s.part)
    (hc : carryOut r ⟨s.part.answering r, []⟩ = ⟨q, []⟩) (hp : q.mgu.inProgress = none) (hq : q.mgu.queue = [])
    (hU : q.portU.waiting = []) (hD : q.portD.waiting = []) : request r s = .next (s.withPart q) := by
  refine (live_released s _ h.1).trans ?_
  rw [event_request r _ h, hc, finish_idle _ _ rfl hp hq, closeGroups_none_waiting _ hU hD]

/-- Two segments enter one after the other when there is room for both. -/
theorem segments_entered (first second : Frame) (p : Part) (h : p.portU.queue.length + 2 ≤ 16) :
    offer (.manageAnswer (some second) first) ⟨p, []⟩ = ⟨(answered p).sentU [first, second], []⟩ := by
  have hroom : hasRoom (push .U first p).portU = true :=
    hasRoom_of_lt _ (by simp only [push, Part.upPortU_portU, List.length_append, List.length_singleton]; omega)
  have hpush : answered (push .U second (push .U first p)) = (answered p).sentU [first, second] := by
    simp [push, Part.upPort, Part.sentU, answered, Part.upMgu]
  rw [offer_U _ _ rfl (show p.portU.queue.length < 16 by omega)]
  simp only [enter, answerEntered, Ev.map, hroom, if_true, hpush]

/-- JOB READ's two frames. -/
theorem jobSegments_eq (tag : Byte) (u : Jau) (j : Job) (context : Acc → List Byte)
    (h : ∀ a, context a = contextBytes u a) :
    [answerFrame 0x43 tag .done (jobSegment1 u j), answerFrame 0x43 tag .done (jobSegment2 u j)] =
      [⟨0, 1, 0x85, [0x43, tag, 0, 1] ++ num8 j.state.code
          ++ num32 j.reference ++ num8 j.outstanding ++ num8 j.pending
          ++ num32 u.waterRate ++ num32 u.runRate ++ num16 u.energyRate ++ context j.production⟩,
        ⟨0, 1, 0x85, [0x43, tag, 0, 2] ++ context j.rework ++ context j.service⟩] := by
  rw [h, h, h]
  simp only [answerFrame, jobSegment1, jobSegment2, ratesBytes, toCell, originate, Status.code, Config.cellNode,
    Config.partNode, num8, List.append_assoc, List.cons_append, List.nil_append]
  rfl

/-- Settles O25. -/
theorem jobReadAnswersInTwoSegments : Obligations.JobReadAnswersInTwoSegments := by
  intro tag job s h hr
  have hr1 : RoomU 1 s.part := Nat.le_trans (Nat.add_le_add_left (by decide) _) hr
  refine ⟨fun hbad => ?_, ?_⟩
  · refine request_report (requestOf tag (.jobRead job)) s .badValue [] h hr1 ?_
    show jobReadAnswer _ _ _ _ = _
    simp only [jobReadAnswer, index_none hbad]
    rfl
  · rintro n j hn rfl
    have hans : ∀ e, carryOut (requestOf tag (.jobRead job)) e = jobReadAnswer 0x43 tag job e := fun _ => rfl
    refine ⟨fun hfree => ?_, fun hused context hctx => ?_⟩
    · refine request_report (requestOf tag (.jobRead job)) s .notFound [] h hr1 ?_
      rw [hans]
      simp only [jobReadAnswer, index_of n hn]
      exact if_pos hfree
    · refine (request_done (requestOf tag (.jobRead job)) s
        (s.part.sentU [answerFrame 0x43 tag .done (jobSegment1 s.part.jau s.part.jau.jobs[n]),
          answerFrame 0x43 tag .done (jobSegment2 s.part.jau s.part.jau.jobs[n])]) h ?_ h.2.2.1 h.2.1 h.2.2.2.2.2.1
        h.2.2.2.2.2.2).trans ?_
      · rw [hans]
        simp only [jobReadAnswer, index_of n hn]
        refine (if_neg hused).trans ((segments_entered _ _ (s.part.answering _) hr).trans ?_)
        simp only [answered_restores s.part _ _ h.2.2.1 rfl]
        rfl
      · rw [jobSegments_eq tag s.part.jau _ context hctx]
        rfl

/-! ### Notices -/

theorem any_same_iff (es : List Notice) (kind : NoticeKind) (station : Option StationNo) :
    (es.any fun n => n.same kind station) = true ↔ ∃ n ∈ es, n.kind = kind ∧ n.station = station := by
  simp only [List.any_eq_true, Notice.same_iff]

/-- Settles O27, by the branch of `joinNotice`. -/
theorem noticesCoalesceJoinOrAreLost : Obligations.NoticesCoalesceJoinOrAreLost := by
  intro u kind station subject
  have hnew : (∀ n ∈ u.entries, ¬(n.kind = kind ∧ n.station = station)) →
      ¬(u.entries.any fun n => n.same kind station) = true := by
    intro h hany
    obtain ⟨n, hn, hsame⟩ := (any_same_iff _ _ _).mp hany
    exact h n hn hsame
  refine ⟨fun h => ?_, fun h hlen => ?_, fun h before newest hu hlen => ?_, joinNotice_eq u kind station subject⟩
  · have hmin : ∀ n : Nat, min 255 (n + 1) = if n < 255 then n + 1 else 255 := by intro n; split <;> omega
    rw [joinNotice, if_pos ((any_same_iff _ _ _).mpr h)]
    simp only [Notice.same_iff, hmin]
  · rw [joinNotice, if_neg (hnew h), if_pos (show u.entries.length < Config.noticePlaces from hlen)]
  · rw [joinNotice, if_neg (hnew h), if_neg (show ¬u.entries.length < Config.noticePlaces from Nat.not_lt.mpr hlen), hu, markLost_append]

/-- R189 step 2 on the queue alone. -/
theorem reRaise_eq (kind : NoticeKind) (p : Part) (c : Prop) [Decidable c] (hc : levelHolds p.wbu kind = true ↔ c) :
    reRaise kind p = { p with ntu :=
      if c ∧ ∀ n ∈ p.ntu.entries, ¬(n.kind = kind ∧ n.station = none) then joinNotice p.ntu kind none .none
      else p.ntu } := by
  have hcond : (levelHolds p.wbu kind && !(p.ntu.entries.any fun n => n.same kind none)) = true ↔
      c ∧ ∀ n ∈ p.ntu.entries, ¬(n.kind = kind ∧ n.station = none) := by
    rw [Bool.and_eq_true, hc, Bool.not_eq_true', ← Bool.not_eq_true, any_same_iff]
    push Not
    rfl
  unfold reRaise
  by_cases h : c ∧ ∀ n ∈ p.ntu.entries, ¬(n.kind = kind ∧ n.station = none)
  · rw [if_pos (hcond.mpr h), if_pos h]; rfl
  · rw [if_neg (mt hcond.mp h), if_neg h]

/-- R189's queue: each water condition that holds and is not queued is raised again, in the order LOW, UPSET, STALE. -/
def reRaised (w : Wbu) (u : Ntu) : Ntu :=
  let low := if w.band = .low ∧ ∀ n ∈ u.entries, ¬(n.kind = .waterLow ∧ n.station = none)
    then joinNotice u .waterLow none .none else u
  let upset := if w.quality = .upset ∧ ∀ n ∈ low.entries, ¬(n.kind = .waterUpset ∧ n.station = none)
    then joinNotice low .waterUpset none .none else low
  if w.freshness = .stale ∧ ∀ n ∈ upset.entries, ¬(n.kind = .waterStale ∧ n.station = none)
    then joinNotice upset .waterStale none .none else upset

theorem reRaised_outstanding (w : Wbu) (u : Ntu) : (reRaised w u).outstanding = u.outstanding := by
  unfold reRaised
  dsimp only
  split_ifs <;> simp only [joinNotice_outstanding]

theorem reRaise_all (p : Part) :
    reRaise .waterStale (reRaise .waterUpset (reRaise .waterLow p)) = { p with ntu := reRaised p.wbu p.ntu } := by
  rw [reRaise_eq .waterLow p (p.wbu.band = .low) (by simp [levelHolds]),
    reRaise_eq .waterUpset _ (p.wbu.quality = .upset) (by simp [levelHolds]),
    reRaise_eq .waterStale _ (p.wbu.freshness = .stale) (by simp [levelHolds])]
  rfl

/-- R189: ACK ATTENTION with nothing waiting. -/
theorem ackAttention_eq (e : Ev) (h : e.p.portU.waiting = []) : ackAttention e =
    testAttention (e.map fun p => { p with ntu := reRaised p.wbu { p.ntu with outstanding := false } }) := by
  have hdiscard : discard .U Waiter.isAttention (e.p.upNtu fun u => { u with outstanding := false }) =
      e.p.upNtu fun u => { u with outstanding := false } := discard_none .U _ _ h
  simp only [ackAttention, Ev.map, hdiscard, reRaise_all]
  rfl

/-- R188: with entries queued and nothing outstanding an ATTENTION is sent when there is room. -/
theorem testAttention_sends (e : Ev) (ho : e.p.ntu.outstanding = false) (hn : e.p.ntu.entries ≠ [])
    (hr : e.p.portU.queue.length < 16) : testAttention e = e.map fun p =>
      Part.sentU { p with ntu := { p.ntu with outstanding := true } }
        [⟨0, 1, 0x83, num8 p.ntu.entries.length ++ num8 (urgentCount p.ntu)⟩] := by
  have hcond : (e.p.ntu.outstanding || e.p.ntu.entries.isEmpty) = false := by simp [ho, hn]
  rw [testAttention, hcond, if_neg Bool.false_ne_true, offer_U _ _ rfl (by exact hr)]
  rfl

theorem testAttention_empty (e : Ev) (hn : e.p.ntu.entries = []) : testAttention e = e := by
  simp [testAttention, hn]

/-- Settles O28. -/
theorem noticeReadAndAckServeTheQueue : Obligations.NoticeReadAndAckServeTheQueue := by
  refine ⟨fun tag s h hr => ?_, ?_⟩
  · refine ⟨(noticesRead s.part.ntu).foldl (fun es n => es.erase n) s.part.ntu.entries, eraseAll_sublist _ _,
      noticeQueue_eraseAll _ _ _ (List.take_append_drop 4 _).symm, ?_⟩
    exact request_writes (requestOf tag .noticeRead) s noticeRead _ _ _ h hr (fun _ => rfl) rfl rfl rfl rfl
  · rintro tag s low upset u h hr rfl rfl hu
    replace hu : u = reRaised s.part.wbu { s.part.ntu with outstanding := false } := hu
    have ho : u.outstanding = false := hu ▸ reRaised_outstanding _ _
    have hack : ∀ r : Request, ackAttention ⟨s.part.answering r, []⟩ =
        testAttention ⟨{ s.part.answering r with ntu := u }, []⟩ := by
      intro r
      rw [ackAttention_eq _ (by exact h.2.2.2.2.2.1), hu]
      rfl
    refine ⟨fun hempty => ?_, fun hsome => ?_⟩
    · refine request_writes (requestOf tag .ackAttention) s attentionAcked { s.part with ntu := u } .done _ h
        (Nat.le_trans (Nat.add_le_add_left (by decide) _) hr) (fun _ => rfl) ?_ rfl rfl rfl
      rw [attentionAcked, hack, testAttention_empty _ hempty]
      simp only [report, hempty, ho]
      rfl
    · refine request_sends (requestOf tag .ackAttention) s
        (Part.sentU { s.part with ntu := { u with outstanding := true } }
          [⟨0, 1, 0x83, num8 u.entries.length ++ num8 (urgentCount u)⟩]) .done _ h ?_ rfl h.2.2.2.2.2.1 h.2.2.2.2.2.2 ?_
      · refine congrArg (sendReply _ _) ?_
        show attentionAcked _ = _
        rw [attentionAcked, hack, testAttention_sends _ ho hsome (show s.part.portU.queue.length < 16 by omega)]
        rfl
      · simp only [Part.sentU_portU, List.length_append, List.length_singleton]
        omega

end Sys2Proof.Machine
end

section
/-! PROOF. The summary timer (R191, R192), a foreign MANAGE REQUEST (R8), the power-up and the warm reset (R18, R98,
R116, R148, R182). -/

namespace Sys2Proof.Machine

/-! ### LINE SUMMARY and FOREIGN_MANAGE -/

theorem bitIf_decide (c : Prop) [Decidable c] (weight : Nat) : bitIf (decide c) weight = if c then weight else 0 := by
  by_cases h : c <;> simp [bitIf, h]

/-- With nothing waiting and room in port U's queue the LINE SUMMARY is sent. -/
theorem formSummary_sends (e : Ev) (h : e.p.portU.waiting = []) (hr : e.p.portU.queue.length < 16) :
    formSummary e = e.map fun p =>
      Part.sentU { p with ntu := { p.ntu with number := (p.ntu.number + 1) % 256 } }
        [summaryFrame { p with ntu := { p.ntu with number := (p.ntu.number + 1) % 256 } } ((p.ntu.number + 1) % 256)] := by
  have hw : e.p.portU.anyWaits Waiter.isSummary = false := by simp [PortState.anyWaits, h]
  simp only [formSummary, Ev.map, Part.upNtu_portU, hw, Bool.false_eq_true, if_false]
  rw [offer_U _ _ rfl (by exact hr)]
  rfl

theorem summaryExpired_running (e : Ev) (ms : Nat) (h : e.p.ntu.timer = .running ms) :
    summaryExpired e = formSummary (e.map fun p => p.upNtu fun u => { u with timer := summaryTimer u }) := by
  simp only [summaryExpired, h]

/-- Settles O29. -/
theorem summaryExpirySendsTheLineSummary : Obligations.SummaryExpirySendsTheLineSummary := by
  intro s ms bytes h hr
  refine ⟨fun hs => ?_, fun hs hb => ⟨?_, ?_⟩⟩
  · refine (live_released s _ h.1).trans ?_
    have hf : summaryExpired ⟨s.part, []⟩ = ⟨s.part, []⟩ := by simp only [summaryExpired, hs]
    rw [event_idle _ _ _ hf h.2.2.1 h.2.1 h.2.2.2.2.2.1 h.2.2.2.2.2.2]
  · rw [hb]
    rfl
  · refine (live_released s _ h.1).trans ?_
    have hframe : ∀ u : Ntu, u.entries = s.part.ntu.entries → u.outstanding = s.part.ntu.outstanding →
        summaryFrame { s.part with ntu := u } ((s.part.ntu.number + 1) % 256) = ⟨0, 1, 0x84, bytes⟩ := by
      rintro ⟨es, o, _, _, _⟩ rfl rfl
      rw [hb]
      simp only [summaryFrame, stationBytes, waterByte, bitIf_decide, available, Nat.mul_comm _ 16]
      rfl
    have hf := summaryExpired_running ⟨s.part, []⟩ ms hs
    rw [formSummary_sends _ (by exact h.2.2.2.2.2.1) (by exact hr)] at hf
    rw [event_idle _ _ _ hf h.2.2.1 h.2.1 h.2.2.2.2.2.1 h.2.2.2.2.2.2]
    exact congrArg (fun f => Host.Outcome.next (s.withPart (Part.sentU _ [f]))) (hframe _ rfl rfl)

/-- Settles O13. -/
theorem foreignManageRaisesItsNotice : Obligations.ForeignManageRaisesItsNotice := by
  intro x dst src payload s hw h hr hn ho
  simp only [WellFormed, Bool.and_eq_true] at hw
  obtain ⟨⟨hnodes, -⟩, hforeign⟩ := hw
  have hkept : (s.part.port x).received = [] := by
    cases x
    · exact h.2.2.2.1
    · exact h.2.2.2.2.1
  refine (live_released s _ h.1).trans ?_
  simp only [foreignTaken, hnodes, hforeign, Bool.not_true, Bool.false_eq_true, if_false, if_true,
    handAll_none x _ hkept]
  have hf := raise_first .foreignManage none .none ⟨s.part, []⟩ ho hn hr
  rw [event_idle _ _ _ hf h.2.2.1 h.2.1 h.2.2.2.2.2.1 h.2.2.2.2.2.2]
  rfl

/-! ### Power-up -/

theorem replicate_get {α : Type} {n : Nat} (x : α) (i : Fin n) : (Vector.replicate n x)[i] = x :=
  Vector.getElem_replicate i.isLt

theorem powerUp_job (locken yardkey : Level) (n : JobNo) :
    (Part.powerUp locken yardkey).jau.jobs[n] = if n = 0 then Job.house else Job.free := by
  show ((Vector.replicate 64 Job.free).set 0 Job.house)[n.val] = _
  rw [Vector.getElem_set]
  by_cases h : n = 0
  · simp [h]
  · have hv : ¬0 = n.val := fun e => h (Fin.ext e.symm)
    rw [if_neg hv, if_neg h]
    exact Vector.getElem_replicate n.isLt

/-- An empty ring, an empty pipeline: a station at rest, as at power-up. -/
theorem atRest_empty (p : Part) (st : StationNo) (ho : p.oqu[st] = Ring.empty) (hc : p.cpl[st] = Pipeline.empty) :
    AtRest p st ∧ p.oqu[st].producer = 0 ∧ (∀ i : SlotNo, p.oqu[st].slots[i] = none)
      ∧ p.cpl[st].ticketNo = 0 ∧ p.cpl[st].overrun = .stopped ∧ p.cpl[st].stop = .stopped := by
  simp only [AtRest, ho, hc]
  exact ⟨⟨rfl, rfl, rfl, rfl, rfl⟩, rfl, fun i => replicate_get none i, rfl, rfl, rfl⟩

/-- Settles O54. -/
theorem powerUpGivesTheStatedValues : Obligations.PowerUpGivesTheStatedValues := by
  intro locken yardkey s
  refine ⟨Part.powerUp locken yardkey, rfl, ⟨rfl, rfl, rfl, rfl, rfl⟩, ⟨rfl, rfl, rfl, rfl, rfl⟩, ⟨rfl, rfl⟩,
    ⟨rfl, rfl, rfl⟩, fun st => ⟨replicate_get _ st, replicate_get _ st⟩,
    fun st => atRest_empty _ st (replicate_get _ st) (replicate_get _ st), fun c => replicate_get _ c, rfl,
    fun n => replicate_get _ n, rfl, ⟨rfl, rfl, rfl, rfl, decide_eq_true_iff, rfl, rfl⟩, rfl,
    ⟨rfl, rfl, rfl, rfl, rfl, rfl, rfl, rfl, rfl, fun st => replicate_get _ st, rfl⟩, fun st => replicate_get _ st,
    ⟨rfl, rfl, rfl, rfl⟩, fun n => ?_, ⟨rfl, rfl, rfl⟩, ⟨rfl, rfl, rfl, rfl, rfl⟩⟩
  rw [powerUp_job]
  by_cases h : n = 0
  · rw [if_pos h, if_pos h]; exact ⟨rfl, rfl, rfl, rfl, rfl, rfl, rfl⟩
  · rw [if_neg h, if_neg h]; exact ⟨rfl, rfl, rfl, rfl, rfl, rfl, rfl⟩

/-! ### The warm reset -/

theorem warmReset_slab (p : Part) (n : SlabNo) :
    (warmReset p).stk.slabs[n] = p.stk.slabs[n].map Slab.afterWarmReset := updAll_get _ _ _ n.isLt

theorem afterWarmReset_eq (r : Slab) : r.afterWarmReset = { r with
    state := match r.state with
      | .stock => .stock
      | .reserved _ => .stock
      | .cutting _ => .doubtful
      | .doubtful => .doubtful } := by
  obtain ⟨state⟩ := r
  cases state <;> rfl

/-- A SAW STOP of a station at rest enters port D's queue and starts nothing. -/
theorem placeSaw_stop_rest (st : StationNo) (p : Part) (hf : p.cpl[st].frames = []) (ha : p.cpl[st].active = none)
    (hr : p.portD.queue.length < 16) :
    placeSaw st .stop none [] ⟨p, []⟩ = ⟨p.sentD [⟨BitVec.ofNat 8 p.map[st].node, 1, 0x47, []⟩], []⟩ := by
  rw [placeSaw_alone st .stop none [] ⟨p, []⟩ hf hr]
  have ha' : (p.sentD [toSaw p st SawKind.stop.code []]).cpl[st].active = none := ha
  simp only [sawEntered, Ev.map, push_D, stopEntered, ha']
  rfl

/-- R98: the SAW STOPs of the mapped stations of a list, in its order. -/
theorem foldl_stopMapped (l : List StationNo) (p : Part)
    (h : ∀ st ∈ l, p.cpl[st].frames = [] ∧ p.cpl[st].active = none) (hr : p.portD.queue.length + l.length ≤ 16) :
    l.foldl stopMapped ⟨p, []⟩ =
      ⟨p.sentD ((l.filter fun st => p.map[st].mapped).map fun st => ⟨BitVec.ofNat 8 p.map[st].node, 1, 0x47, []⟩), []⟩ := by
  induction l generalizing p with
  | nil => simp [Part.sentD]
  | cons st l ih =>
    have hrest := fun x hx => h x (List.mem_cons_of_mem _ hx)
    obtain ⟨hf, ha⟩ := h st List.mem_cons_self
    simp only [List.length_cons] at hr
    simp only [List.foldl_cons, stopMapped]
    cases hm : p.map[st].mapped with
    | false =>
      simp only [Bool.false_eq_true, if_false]
      rw [ih p hrest (by omega), List.filter_cons_of_neg (p := fun x : StationNo => p.map[x].mapped)
        (Bool.eq_false_iff.mp hm)]
    | true =>
      simp only [if_true]
      have hnext := ih (p.sentD [⟨BitVec.ofNat 8 p.map[st].node, 1, 0x47, []⟩]) hrest
        (by simp only [Part.sentD_portD, List.length_append, List.length_singleton]; omega)
      rw [placeSaw_stop_rest st p hf ha (by omega), hnext, sentD_sentD,
        List.filter_cons_of_pos (p := fun x : StationNo => p.map[x].mapped) hm]
      rfl

/-- R98, R148: what the part queues on leaving reset, with every station at rest and room. -/
theorem leaveReset_rest (p : Part) (h : ∀ st : StationNo, p.cpl[st].frames = [] ∧ p.cpl[st].active = none)
    (hr : p.portD.queue.length ≤ 7) :
    leaveReset ⟨p, []⟩ = ⟨p.sentD
      ((allStations.filter fun st => p.map[st].mapped).map (fun st => ⟨BitVec.ofNat 8 p.map[st].node, 1, 0x47, []⟩)
        ++ if p.wbu.consts.plantNode = 0 then [] else [⟨BitVec.ofNat 8 p.wbu.consts.plantNode, 1, 0x52, []⟩]), []⟩ := by
  have hlen : allStations.length = 8 := rfl
  have hfold := foldl_stopMapped allStations p (fun st _ => h st) (by omega)
  simp only [leaveReset, hfold, Part.sentD_wbu]
  by_cases hn : p.wbu.consts.plantNode = 0
  · simp only [hn, if_true, List.append_nil]
  · have hcount := List.length_filter_le (fun st => p.map[st].mapped) allStations
    rw [if_neg hn, if_neg hn, offer_D _ _ rfl
      (by simp only [Part.sentD_portD, List.length_append, List.length_map]; omega), ← sentD_sentD]
    rfl

/-- R2, R125, R193: what the release itself sets. -/
def Part.released (p : Part) : Part :=
  { p with
    inReset := false
    lck := { p.lck with key := p.yardkey, settle := .stopped }
    ntu := { p.ntu with timer := if p.ntu.period = 0 then .stopped else .running (p.ntu.period * 100) } }

theorem releaseReset_eq (p : Part) : releaseReset p = event leaveReset p.released := rfl

/-- Settles O55: the reset by its fields; the release by the frames it queues. -/
theorem warmResetKeepsTablesAndStock : Obligations.WarmResetKeepsTablesAndStock := by
  refine ⟨fun s h => ?_, fun s h hq hp hU hD hr hrest => ?_⟩
  · refine ⟨warmReset s.part, live_released s _ h, rfl, rfl,
      ⟨rfl, rfl, rfl, rfl, rfl, rfl, rfl, rfl, rfl, rfl, rfl, rfl, rfl, rfl, rfl, rfl⟩, fun st => ?stations, rfl,
      fun n hn => ?free, fun n r hn => ?used, fun n => updAll_get _ _ _ n.isLt,
      ⟨rfl, rfl, rfl, rfl, rfl, rfl, rfl, rfl, fun st => replicate_get _ st, rfl⟩, ⟨rfl, rfl, rfl, rfl, rfl, rfl⟩,
      ⟨rfl, rfl, rfl, rfl, rfl, rfl, rfl, rfl⟩, rfl, rfl⟩
    case stations =>
      obtain ⟨h1, h2, h3, h4, h5, h6⟩ := atRest_empty (warmReset s.part) st (replicate_get _ st) (replicate_get _ st)
      exact ⟨h1, h2, h3, h4, h5, h6, replicate_get _ st, replicate_get _ st⟩
    case free => rw [warmReset_slab, hn]; rfl
    case used => rw [warmReset_slab, hn]; exact congrArg some (afterWarmReset_eq r)
  · have hleave := leaveReset_rest s.part.released (fun st => ⟨(hrest st).2.2.2.2, (hrest st).2.2.2.1⟩) hr
    show Host.Outcome.next _ = _
    rw [if_pos h, releaseReset_eq, event_idle _ _ _ hleave hp hq hU hD]
    rfl

end Sys2Proof.Machine
end

section
/-! PROOF. Cut tickets (R65 to R74, R77) and the records of kept remnants (R112). -/

namespace Sys2Proof

/-! ### Division rounded up -/

theorem le_ceilDiv_mul (a b : Nat) (hb : 0 < b) : a ≤ ceilDiv a b * b := by
  have := Nat.lt_div_mul_add (a := a + b - 1) hb
  simp only [ceilDiv]
  omega

theorem ceilDiv_mul_lt (a b : Nat) (hb : 0 < b) : ceilDiv a b * b < a + b := by
  have := Nat.div_mul_le_self (a + b - 1) b
  simp only [ceilDiv]
  omega

end Sys2Proof

namespace Sys2Proof.Machine

/-! ### Remnants -/

theorem remnantOf_none (c : SawClass) (gen a b : Nat) : remnantOf c gen a b = none ↔ a = 0 ∨ b = 0 := by
  unfold remnantOf
  split <;> simp [*]

theorem remnantOf_some (c : SawClass) (gen a b : Nat) (r : Remnant) (h : remnantOf c gen a b = some r) :
    (0 < a ∧ 0 < b) ∧ r.len = a ∧ r.wid = b ∧ r.kept = keeps c gen a b := by
  unfold remnantOf at h
  split at h
  · cases h
  next hn =>
    cases h
    exact ⟨by omega, rfl, rfl, rfl⟩

theorem keeps_iff (c : SawClass) (gen a b : Nat) : keeps c gen a b = true ↔
    c.lmin ≤ max a b ∧ c.wmin ≤ min a b ∧ 100 ≤ min a b ∧ gen + 1 ≤ 3 := by
  simp only [keeps, Bool.and_eq_true, decide_eq_true_eq, and_assoc]

/-- R72 for a present remnant. -/
theorem remnantOf_kept (c : SawClass) (gen a b : Nat) (r : Remnant) (h : remnantOf c gen a b = some r) :
    r.kept = true ↔ c.lmin ≤ max r.len r.wid ∧ c.wmin ≤ min r.len r.wid ∧ 100 ≤ min r.len r.wid ∧ gen + 1 ≤ 3 := by
  obtain ⟨-, hlen, hwid, hkept⟩ := remnantOf_some c gen a b r h
  rw [hkept, hlen, hwid, keeps_iff]

/-- R65: a piece that is not larger than its source fits. -/
theorem ticketOf_none (c : SawClass) (source : Source) (s : Stone) (l w : Nat) :
    ticketOf c source s l w = none ↔ s.len < l ∨ s.wid < w := by
  unfold ticketOf
  split <;> simp [*]

theorem ticketOf_fits (c : SawClass) (source : Source) (s : Stone) (l w : Nat) (t : Ticket)
    (h : ticketOf c source s l w = some t) : l ≤ s.len ∧ w ≤ s.wid := by
  have hn : ¬(s.len < l ∨ s.wid < w) := by
    rw [← ticketOf_none c source, h]
    exact nofun
  omega

/-- Settles O38. -/
theorem ticketCutsThePieceFromTheCorner : Obligations.TicketCutsThePieceFromTheCorner := by
  intro c source s l w
  refine ⟨ticketOf_none c source s l w, fun t h => ?_⟩
  obtain ⟨hl, hw⟩ := ticketOf_fits c source s l w t h
  unfold ticketOf at h
  rw [if_neg (by omega)] at h
  cases h
  refine ⟨⟨rfl, rfl, rfl, rfl, rfl, rfl⟩, ⟨rfl, rfl, rfl, rfl, rfl, rfl⟩, decide_eq_true_iff, decide_eq_true_iff, rfl, rfl,
    ?_, ?_, ?_, ?_, fun a ha => ?_, fun b hb => ?_, fun h0 => ?_, fun h0 => ?_, fun r hr => ?_, rfl⟩
  · simp only [decide_eq_true_eq]
  · simp only [decide_eq_true_eq]
  · simp only [decide_eq_true_eq]
  · simp only [decide_eq_true_eq]
  · obtain ⟨⟨-, hpos⟩, hlen, hwid, -⟩ := remnantOf_some _ _ _ _ _ ha
    exact ⟨hlen, hwid, hwid ▸ hpos⟩
  · obtain ⟨⟨hpos, -⟩, hlen, hwid, -⟩ := remnantOf_some _ _ _ _ _ hb
    exact ⟨hlen, hwid, hlen ▸ hpos⟩
  · exact (remnantOf_none _ _ _ _).trans (or_iff_right (by omega))
  · exact (remnantOf_none _ _ _ _).trans (or_iff_left (by omega))
  · rcases hr with hr | hr
    · exact remnantOf_kept _ _ _ _ _ hr
    · exact remnantOf_kept _ _ _ _ _ hr

/-! ### Areas and figures -/

theorem areaSum_remnantOf (c : SawClass) (gen a b : Nat) : areaSum (remnantOf c gen a b).toList = a * b := by
  unfold remnantOf areaSum
  split
  next h => rcases h with h | h <;> simp [h]
  next => simp [Remnant.area]

theorem areaSum_append (xs ys : List Remnant) : areaSum (xs ++ ys) = areaSum xs + areaSum ys := by
  simp [areaSum]

/-- What is kept and what is scrap are all the remnants. -/
theorem areaSum_filter (rs : List Remnant) (f : Remnant → Bool) :
    areaSum (rs.filter f) + areaSum (rs.filter fun r => !f r) = areaSum rs := by
  induction rs with
  | nil => rfl
  | cons r rs ih =>
    simp only [areaSum, List.map_cons, List.sum_cons] at ih ⊢
    cases hf : f r <;> simp [hf] <;> omega

/-- R73: the piece, the remnants and the kerf make up the source. -/
theorem areas_make_source (L W l w kr kc : Nat) (hl : l ≤ L) (hw : w ≤ W) (hr : kr ≤ W - w) (hc : kc ≤ L - l) :
    L * W = l * w + (L * (W - w - kr) + (L - l - kc) * w) + (L * kr + w * kc) := by
  obtain ⟨x, rfl⟩ : ∃ x, W = w + kr + x := ⟨W - w - kr, by omega⟩
  obtain ⟨y, rfl⟩ : ∃ y, L = l + kc + y := ⟨L - l - kc, by omega⟩
  have hx : w + kr + x - w - kr = x := by omega
  have hy : l + kc + y - l - kc = y := by omega
  rw [hx, hy]
  ring

theorem ticket_areas (c : SawClass) (source : Source) (s : Stone) (l w : Nat) (t : Ticket)
    (h : ticketOf c source s l w = some t) :
    t.areaSource = t.areaPiece + t.areaKept + t.areaScrap + t.areaKerf := by
  obtain ⟨hl, hw⟩ := ticketOf_fits c source s l w t h
  unfold ticketOf at h
  rw [if_neg (by omega)] at h
  cases h
  have hall := areaSum_filter (remnantList (remnantOf c s.gen s.len (s.wid - w - min c.kerf (s.wid - w)))
    (remnantOf c s.gen (s.len - l - min c.kerf (s.len - l)) w)) fun r => r.kept
  have hrem := areaSum_append (remnantOf c s.gen s.len (s.wid - w - min c.kerf (s.wid - w))).toList
    (remnantOf c s.gen (s.len - l - min c.kerf (s.len - l)) w).toList
  rw [areaSum_remnantOf, areaSum_remnantOf] at hrem
  have hsource := areas_make_source s.len s.wid l w (min c.kerf (s.wid - w)) (min c.kerf (s.len - l)) hl hw
    (Nat.min_le_right _ _) (Nat.min_le_right _ _)
  simp only [keptList, remnantList] at hall hrem ⊢
  omega

/-- R70: the passes of a thickness. -/
theorem passes_cover (thick depth : Nat) (hd : 5 ≤ depth) (h1 : 10 ≤ thick) (h2 : thick ≤ 80) (n d : Nat)
    (hn : n = ceilDiv thick depth) (hdep : d = ceilDiv thick n) :
    (1 ≤ n ∧ n ≤ 16) ∧ ((n - 1) * depth < thick ∧ thick ≤ n * depth)
    ∧ (d * n < thick + n ∧ thick ≤ d * n ∧ d ≤ depth)
    ∧ ((n - 1) * d + (thick - (n - 1) * d) = thick ∧ 1 ≤ thick - (n - 1) * d ∧ thick - (n - 1) * d ≤ d) := by
  have hlow := le_ceilDiv_mul thick depth (by omega)
  have hhigh := ceilDiv_mul_lt thick depth (by omega)
  rw [← hn] at hlow hhigh
  have hpos : 1 ≤ n := by
    by_contra h0
    have : n = 0 := by omega
    subst this
    omega
  have hpred : (n - 1) * depth + depth = n * depth := by
    rw [← Nat.succ_mul]
    congr 1
    omega
  have hmost : n ≤ 16 := by
    by_contra h0
    have : 17 * 5 ≤ n * depth := Nat.mul_le_mul (by omega) hd
    have : 16 * 5 ≤ (n - 1) * depth := Nat.mul_le_mul (by omega) hd
    omega
  have hdlow := le_ceilDiv_mul thick n (by omega)
  have hdhigh := ceilDiv_mul_lt thick n (by omega)
  rw [← hdep] at hdlow hdhigh
  have hdle : d ≤ depth := by
    have hlt : d * n < (depth + 1) * n := by
      rw [Nat.succ_mul, Nat.mul_comm depth]
      omega
    exact Nat.lt_succ_iff.mp (Nat.lt_of_mul_lt_mul_right hlt)
  have hlast : (n - 1) * d < thick := by
    have : (n - 1) * d ≤ (n - 1) * depth := Nat.mul_le_mul_left _ hdle
    omega
  have hdpred : (n - 1) * d + d = d * n := by
    rw [← Nat.succ_mul, Nat.mul_comm d]
    congr 1
    omega
  refine ⟨⟨hpos, hmost⟩, ⟨?_, hlow⟩, ⟨hdhigh, hdlow, hdle⟩, ?_, ?_, ?_⟩
  · omega
  · omega
  · omega
  · omega

/-- R77: a piece that is its source leaves nothing to cut. -/
theorem ticket_takeWhole (c : SawClass) (source : Source) (s : Stone) (t : Ticket)
    (h : ticketOf c source s s.len s.wid = some t) :
    t.takeWhole = true ∧ t.cutLen = 0 ∧ t.tEst = 0 ∧ t.water = 0 ∧ t.remA = none ∧ t.remB = none
      ∧ t.areaKerf = 0 ∧ t.areaScrap = 0 ∧ t.planned = 0 := by
  unfold ticketOf at h
  rw [if_neg (by omega)] at h
  cases h
  have hceil : ∀ b, ceilDiv 0 b = 0 := fun b => by simp only [ceilDiv]; cases b <;> simp
  simp [Ticket.takeWhole, hceil, remnantOf, remnantList, keptList, areaSum]

/-- Settles O39. -/
theorem ticketFiguresAddUp : Obligations.TicketFiguresAddUp := by
  refine ⟨fun c source s l w t h => ?_, fun c source s l w t h hc h10 h80 => ?_⟩
  · have hareas := ticket_areas c source s l w t h
    have hwhole := fun (hl : l = s.len) (hw : w = s.wid) => ticket_takeWhole c source s t (by rw [← h, hl, hw])
    obtain ⟨hl, hw⟩ := ticketOf_fits c source s l w t h
    unfold ticketOf at h
    rw [if_neg (by omega)] at h
    cases h
    exact ⟨rfl, rfl, rfl, rfl, rfl, rfl, hareas, hwhole⟩
  · obtain ⟨-, ⟨hdepth, -⟩, -, hfeed, -, -⟩ := hc
    obtain ⟨hl, hw⟩ := ticketOf_fits c source s l w t h
    unfold ticketOf at h
    rw [if_neg (by omega)] at h
    cases h
    obtain ⟨hpasses, hcover, hpass, hlast⟩ := passes_cover s.thick c.depth hdepth h10 h80 _ _ rfl rfl
    exact ⟨hpasses, hcover, hpass, hlast, ⟨le_ceilDiv_mul _ _ (hfeed _).1, ceilDiv_mul_lt _ _ (hfeed _).1⟩,
      ⟨le_ceilDiv_mul _ 1000 (by decide), ceilDiv_mul_lt _ 1000 (by decide)⟩⟩

/-- Shares rounded down one by one do not exceed the whole share. -/
theorem sum_div_le {α : Type} (basis n : Nat) (f : α → Nat) (l : List α) :
    (l.map fun x => basis * f x / n).sum ≤ basis * (l.map f).sum / n := by
  induction l with
  | nil => simp
  | cons x l ih =>
    simp only [List.map_cons, List.sum_cons, Nat.mul_add]
    exact (Nat.add_le_add_left ih _).trans Nat.div_add_div_le_add_div

/-- Settles O40. -/
theorem splitSharesTheWholeBasis : Obligations.SplitSharesTheWholeBasis := by
  intro c source s l w t basis h
  refine ⟨rfl, rfl, ?_⟩
  have hareas := ticket_areas c source s l w t h
  have hkept : areaSum t.kept = t.areaKept := by
    obtain ⟨hl, hw⟩ := ticketOf_fits c source s l w t h
    unfold ticketOf at h
    rw [if_neg (by omega)] at h
    cases h
    rfl
  have hbases : (splitOf t basis).bases.sum ≤ basis * t.areaKept / t.areaSource := by
    rw [← hkept]
    exact sum_div_le basis t.areaSource Remnant.area t.kept
  have hwhole : (splitOf t basis).material + (splitOf t basis).bases.sum ≤ basis := by
    calc (splitOf t basis).material + (splitOf t basis).bases.sum
        ≤ basis * t.areaPiece / t.areaSource + basis * t.areaKept / t.areaSource := Nat.add_le_add_left hbases _
      _ ≤ (basis * t.areaPiece + basis * t.areaKept) / t.areaSource := Nat.div_add_div_le_add_div
      _ ≤ basis := by
          refine Nat.div_le_of_le_mul ?_
          rw [← Nat.mul_add, Nat.mul_comm]
          exact Nat.mul_le_mul_right _ (by omega)
  have hwaste : (splitOf t basis).waste = basis - (splitOf t basis).material - (splitOf t basis).bases.sum := rfl
  omega

/-- Settles O50. -/
theorem remnantsTakeTheLowestFreeRecords : Obligations.RemnantsTakeTheLowestFreeRecords := by
  rintro source n m gen basis r state rest k hfree hused after rfl
  have hstore := storeLowest_free (remnantRecord source n gen r basis state) k m (findSlab_free k m hfree hused)
  simp only [createRemnants, hstore]
  rfl

end Sys2Proof.Machine
end

section
/-! PROOF. The idle millisecond (log 2), and posting and the audit freeze (R152 to R163). -/

namespace Sys2Proof.Machine

/-! ### The idle millisecond -/

theorem drainAll_none (p : Part) (h : ∀ st : StationNo, p.psu.posts[st].covered = 0) : drainAll p = p :=
  eachStation_same _ _ fun st => expireIf_not _ _ _ (by rw [h st]; rfl)

/-- No timer but the settle timer ends with the millisecond: only YARDKEY's sample is left. -/
theorem expireAll_none (p : Part)
    (h : ∀ st : StationNo, p.cpl[st].overrun.isOut = false ∧ p.cpl[st].stop.isOut = false
      ∧ p.psu.posts[st].timer.isOut = false)
    (hw : p.wbu.sampleTimer.isOut = false) (hf : p.psu.freezeTimer.isOut = false) (hn : p.ntu.timer.isOut = false) :
    expireAll p = p.upLck (sampleKey p.yardkey) := by
  have h1 := eachStation_same (fun st => expireIf (fun q => q.cpl[st].overrun.isOut) (overrunExpired st)) p
    fun st => expireIf_not _ _ _ (h st).1
  have h2 := eachStation_same (fun st => expireIf (fun q => q.cpl[st].stop.isOut) (stopExpired st)) p
    fun st => expireIf_not _ _ _ (h st).2.1
  have h3 := eachStation_same (fun st => expireIf (fun q => q.psu.posts[st].timer.isOut) fun e => e.map (coalesceExpired st))
    p fun st => expireIf_not _ _ _ (h st).2.2
  have h4 := expireIf_not (fun q => q.wbu.sampleTimer.isOut) sampleExpired p hw
  have h5 := expireIf_not (fun q => q.psu.freezeTimer.isOut) freezeExpired p hf
  have h6 := expireIf_not (fun q => q.ntu.timer.isOut) summaryExpired p hn
  simp only [expireAll, h1, h2, h3, h4, h5, h6]

theorem tick_eq (t : Timer) : t.tick = match t with | .running n => .running (n - 1) | x => x := by
  cases t <;> rfl

theorem countDown_cpl (p : Part) (st : StationNo) : (countDown p).cpl[st] =
    { p.cpl[st] with overrun := p.cpl[st].overrun.tick, stop := p.cpl[st].stop.tick } := updAll_get _ _ _ st.isLt

theorem countDown_posts (p : Part) (st : StationNo) : (countDown p).psu.posts[st] =
    { p.psu.posts[st] with timer := p.psu.posts[st].timer.tick } := updAll_get _ _ _ st.isLt

/-- Settles O3: nothing is handed over, drained or brought to its end, so that a millisecond counts down and samples
YARDKEY. -/
theorem idleStepCountsOneMillisecond : Obligations.IdleStepCountsOneMillisecond := by
  intro s hs h hst hw hf hn
  have hidle : millisecond s.part = (countDown s.part).upLck (sampleKey s.part.yardkey) := by
    have hU : handAll .U s.part = s.part := handAll_none .U _ h.2.2.2.1
    have hD : handAll .D s.part = s.part := handAll_none .D _ h.2.2.2.2.1
    have hdrain := drainAll_none s.part fun st => (hst st).1
    have hexpire := expireAll_none (countDown s.part)
      (fun st => by
        obtain ⟨-, ho, hp, ht⟩ := hst st
        rw [countDown_cpl, countDown_posts]
        exact ⟨tick_not_out _ ho, tick_not_out _ hp, tick_not_out _ ht⟩)
      (tick_not_out _ hw) (tick_not_out _ hf) (tick_not_out _ hn)
    simp only [millisecond, h.1, Bool.false_eq_true, if_false, hU, hD, hdrain, hexpire]
    rfl
  refine ⟨{ s with part := (countDown s.part).upLck (sampleKey s.part.yardkey) }, ?_, sampleKey_tick _ _, fun st => ?_,
    fun st => ?_, rfl⟩
  · simp only [step, hs, hidle]
  · refine (countDown_cpl s.part st).trans ?_
    rw [tick_eq, tick_eq] <;> rfl
  · refine (countDown_posts s.part st).trans ?_
    rw [tick_eq] <;> rfl

/-- An event that changes a quiet part to one that is quiet too and wants nothing more. -/
theorem live_quiet (s : State) (f : Ev → Ev) (q : Part) (h : Quiet s.part) (hf : f ⟨s.part, []⟩ = ⟨q, []⟩)
    (hm : q.mgu = s.part.mgu) (hU : q.portU.waiting = s.part.portU.waiting)
    (hD : q.portD.waiting = s.part.portD.waiting) : live s (event f) = .next (s.withPart q) := by
  obtain ⟨hr, hq, hi, -, -, hwU, hwD⟩ := h
  have he : event f s.part = q :=
    event_idle f _ q hf (by rw [hm, hi]) (by rw [hm, hq]) (hU.trans hwU) (hD.trans hwD)
  exact (live_released s _ hr).trans (congrArg (fun x => Host.Outcome.next (s.withPart x)) he)

/-! ### Drains -/

theorem drainDone_none (st : StationNo) (p : Part) (h : p.mgu.inProgress = none) : drainDone st p = p := by
  have hm : ({ p.mgu with inProgress := none } : Mgu) = p.mgu := by rw [← h]
  simp only [drainDone, Part.upMgu, h, Option.map_none, hm]

theorem coverAll_eq (x : Posting) :
    x.coverAll = if x.buffer = [] then x else { x with covered := x.buffer.length, timer := .stopped } := by
  simp only [Posting.coverAll, List.isEmpty_iff]

theorem upPost_eq_set (p : Part) (st : StationNo) (f : Posting → Posting) :
    p.upPost st f = { p with psu := { p.psu with posts := p.psu.posts.set st (f p.psu.posts[st]) } } := rfl

theorem upPost_upPost (p : Part) (st : StationNo) (f g : Posting → Posting) :
    (p.upPost st f).upPost st g = p.upPost st fun x => g (f x) := by
  simp only [Part.upPost, upd_upd]
  rfl

/-- The batch test and the count of a drain's last application (R155, R154). -/
theorem lowerCovered_eq (st : StationNo) (p : Part) (hp : p.mgu.inProgress = none) (hf : p.psu.freeze ≠ .frozen)
    (hc : 0 < p.psu.posts[st].covered) :
    lowerCovered st p = p.upPost st fun x =>
      ⟨x.target, x.buffer, if x.covered = 1 ∧ 4 ≤ x.buffer.length then 4 else x.covered - 1,
        if x.covered = 1 ∧ x.buffer.length = 4 then .stopped else x.timer⟩ := by
  simp only [lowerCovered]
  by_cases h1 : p.psu.posts[st].covered = 1
  · have hbatch : ∀ q : Part, q.psu.freeze = p.psu.freeze → batchTest st q = q.upPost st Posting.batch := by
      intro q hq
      rw [batchTest, hq, if_neg hf]
    have hdone : ∀ q : Part, q.mgu = p.mgu → drainDone st q = q := fun q hq => drainDone_none st q (hq ▸ hp)
    rw [h1, if_pos rfl, hdone (p.upPost st _) rfl, hbatch (p.upPost st _) rfl, upPost_upPost, upPost_eq_set, upPost_eq_set]
    simp only [Posting.batch, h1, true_and]
    by_cases h4 : 4 ≤ p.psu.posts[st].buffer.length
    · simp only [h4, if_true]
    · have hne : p.psu.posts[st].buffer.length ≠ 4 := by omega
      simp only [h4, hne, if_false]
  · have hleft : p.psu.posts[st].covered - 1 ≠ 0 := by omega
    rw [if_neg hleft, upPost_eq_set, upPost_eq_set]
    simp only [h1, false_and, if_false]

/-- R177, R171, R172 on the job's record. -/
theorem job_apply_eq (j : Job) (y : Entry) : j.apply y = { j with
    state := if j.state = .closing ∧ j.outstanding = 0 ∧ j.pending - 1 = 0 then .closed else j.state
    pending := j.pending - 1
    production := if y.target.ctx = .production then (j.acc y.target.ctx).add y else j.production
    rework := if y.target.ctx = .rework then (j.acc y.target.ctx).add y else j.rework
    service := if y.target.ctx = .service then (j.acc y.target.ctx).add y else j.service } := by
  have hset : j.setAcc y.target.ctx ((j.acc y.target.ctx).add y) = { j with
      production := if y.target.ctx = .production then (j.acc y.target.ctx).add y else j.production
      rework := if y.target.ctx = .rework then (j.acc y.target.ctx).add y else j.rework
      service := if y.target.ctx = .service then (j.acc y.target.ctx).add y else j.service } := by
    cases y.target.ctx <;> rfl
  simp only [Job.apply, hset, Job.settled]
  by_cases hc : j.state = .closing ∧ j.outstanding = 0 ∧ j.pending - 1 = 0
  · simp only [hc, and_self, if_true]
  · rw [if_neg hc, if_neg hc]

theorem saturatedBy_iff (a : Acc) (y : Entry) : a.saturatedBy y = true ↔
    (0 < y.material ∧ 4294967295 ≤ a.material + y.material) ∨ (0 < y.waste ∧ 4294967295 ≤ a.waste + y.waste)
      ∨ (0 < y.water ∧ 4294967295 ≤ a.water + y.water) ∨ (0 < y.run ∧ 4294967295 ≤ a.run + y.run)
      ∨ (0 < y.energy ∧ 4294967295 ≤ a.energy + y.energy) := by
  simp only [Acc.saturatedBy, saturates, Bool.or_eq_true, Bool.and_eq_true, decide_eq_true_iff, or_assoc]
  rfl

/-- A notice that is raised only when it is due, with an ATTENTION outstanding. -/
theorem raise_if (c : Bool) (kind : NoticeKind) (station : Option StationNo) (subject : Subject) (e : Ev) (u : Ntu)
    (h : c = true → e.p.ntu.outstanding = true ∧ u = joinNotice e.p.ntu kind station subject)
    (hn : ¬c = true → u = e.p.ntu) :
    (if c then raise kind station subject e else e) = e.map fun p => { p with ntu := u } := by
  by_cases hc : c = true
  · obtain ⟨ho, hu⟩ := h hc
    rw [if_pos hc, raise_outstanding _ _ _ _ ho, hu]
    rfl
  · rw [if_neg hc, hn hc]
    rfl

/-- JAU applies an entry, with its notice when a sum saturates. -/
theorem applyEntry_eq (st : StationNo) (y : Entry) (e : Ev) (u : Ntu)
    (h : ((e.p.jau.jobs[y.target.job]).acc y.target.ctx).saturatedBy y = true →
      e.p.ntu.outstanding = true ∧ u = joinNotice e.p.ntu .postSaturated (some st) (.job y.target.job))
    (hn : ¬((e.p.jau.jobs[y.target.job]).acc y.target.ctx).saturatedBy y = true → u = e.p.ntu) :
    applyEntry st y e = e.map fun p => { p.upJob y.target.job (fun j => j.apply y) with ntu := u } := by
  unfold applyEntry
  exact raise_if _ _ _ _ (e.map fun p => p.upJob y.target.job fun j => j.apply y) u h hn

/-- Settles O35: an application by its steps, and the timer's expiry as a flush. -/
theorem drainsApplyEntriesAndTimersStartThem : Obligations.DrainsApplyEntriesAndTimersStartThem := by
  refine ⟨fun st s x y rest j acc sum h hx => ⟨fun hno => ?_, ?_⟩, fun st s x ms h hx => ⟨fun ht => ?_, fun ht => ?_⟩⟩
  · subst hx
    have hf : drainOnce st ⟨s.part, []⟩ = ⟨s.part, []⟩ := if_pos hno
    exact live_quiet s _ s.part h hf rfl rfl rfl
  · subst hx
    rintro hf hc hb rfl hacc hsum full u hfull hu hnot
    have hacc' : acc = (s.part.jau.jobs[y.target.job]).acc y.target.ctx := hacc.trans (by cases y.target.ctx <;> rfl)
    have hsum' : sum = ((s.part.jau.jobs[y.target.job]).acc y.target.ctx).add y := hacc' ▸ hsum
    have hsat : ((s.part.jau.jobs[y.target.job]).acc y.target.ctx).saturatedBy y = true ↔ full := by
      rw [hfull, hacc']
      exact saturatedBy_iff _ y
    have hfront : applyFront st ⟨s.part, []⟩ = ⟨{ (s.part.upPost st fun z => { z with buffer := rest }).upJob y.target.job
        (fun j => j.apply y) with ntu := u }, []⟩ := by
      simp only [applyFront, hb]
      exact applyEntry_eq st y ((⟨s.part, []⟩ : Ev).map fun p => p.upPost st fun z => { z with buffer := rest }) u
        (fun e => hu (hsat.mp e)) fun e => hnot (mt hsat.mpr e)
    have hdrain : drainOnce st ⟨s.part, []⟩ = ⟨{ s.part with
        psu := { s.part.psu with
          posts := s.part.psu.posts.set st
            ⟨s.part.psu.posts[st].target, rest, if s.part.psu.posts[st].covered = 1 ∧ 4 ≤ rest.length then 4
                else s.part.psu.posts[st].covered - 1,
              if s.part.psu.posts[st].covered = 1 ∧ rest.length = 4 then .stopped else s.part.psu.posts[st].timer⟩ }
        jau := { s.part.jau with
          jobs := s.part.jau.jobs.set y.target.job (s.part.jau.jobs[y.target.job].apply y) }
        ntu := u }, []⟩ := by
      have hpos : ¬(s.part.psu.freeze = .frozen ∨ s.part.psu.posts[st].covered = 0) := by
        rintro (h1 | h1)
        · exact hf h1
        · omega
      refine (if_neg hpos).trans ?_
      have hcov := upd_same s.part.psu.posts st fun z => { z with buffer := rest }
      have hlow := lowerCovered_eq st { (s.part.upPost st fun z => { z with buffer := rest }).upJob y.target.job
        (fun j => j.apply y) with ntu := u } h.2.2.1 hf ((congrArg Posting.covered hcov).symm ▸ hc)
      rw [hfront]
      refine (congrArg (Ev.mk · []) hlow).trans ?_
      simp only [upPost_eq_set, Part.upJob, upd_eq_set, Vector.getElem_set_self, Fin.getElem_fin, Vector.set_set]
    refine (live_quiet s _ _ h hdrain rfl rfl rfl).trans ?_
    rw [job_apply_eq, ← hsum']
  · have hf : coalesceExpired st s.part = s.part := by simp only [coalesceExpired, ← hx, ht]
    exact live_quiet s _ s.part h (congrArg (Ev.mk · []) hf) rfl rfl rfl
  · have hf : coalesceExpired st s.part = { s.part with psu := { s.part.psu with
        posts := s.part.psu.posts.set st { x with
          timer := .stopped
          covered := if s.part.psu.freeze = .frozen ∨ x.buffer = [] then x.covered else x.buffer.length } } } := by
      simp only [coalesceExpired, ← hx, ht, flushBuffer]
      by_cases hfr : s.part.psu.freeze = .frozen
      · refine (if_pos hfr).trans ?_
        simp only [upPost_eq_set, ← hx, hfr, true_or, if_true]
      · refine (if_neg hfr).trans ?_
        rw [upPost_upPost, upPost_eq_set, ← hx]
        simp only [coverAll_eq, hfr, false_or]
        by_cases hb : x.buffer = []
        · simp only [hb, if_true]
        · simp only [hb, if_false]
    exact live_quiet s _ _ h (congrArg (Ev.mk · []) hf) rfl rfl rfl

end Sys2Proof.Machine
end

section
/-! PROOF. The audit freeze and the thaw (R160 to R163). -/

namespace Sys2Proof.Machine

/-! ### AUDIT FREEZE -/

theorem anyDrain_false (u : Psu) : anyDrain u = false ↔ ∀ st : StationNo, u.posts[st].covered = 0 := by
  simp only [anyDrain, List.any_eq_false, mem_allStations, decide_eq_true_eq, Nat.not_lt, Nat.le_zero, forall_const]

theorem sendReply_room (code tag : Byte) (status : Status) (bytes : List Byte) (q : Part)
    (h : q.portU.queue.length < 16) :
    sendReply code tag ⟨⟨q, []⟩, status, bytes⟩ = ⟨(answered q).sentU [answerFrame code tag status bytes], []⟩ := by
  simp only [sendReply]
  rw [offer_U _ _ rfl h]
  rfl

theorem takeRequest_none (e : Ev) (hp : e.p.mgu.inProgress = none) (hq : e.p.mgu.queue = []) :
    takeRequest e = none := by
  simp only [takeRequest, hp, hq]

/-- A request that MGU takes at once, to the end of its event. -/
theorem request_ends (r : Request) (s : State) (q : Part) (h : Quiet s.part)
    (ts : List Task)
    (hf : finish 15 (carryOut r ⟨s.part.answering r, []⟩) = ⟨q, ts⟩) (hU : q.portU.waiting = [])
    (hD : q.portD.waiting = []) : request r s = .next (s.withPart q) := by
  have he : event (handRequest r) (handAll .U s.part) = q := by
    rw [event_request r _ h, hf, closeGroups_none_waiting _ hU hD]
  exact (live_released s _ h.1).trans (congrArg (fun p => Host.Outcome.next (s.withPart p)) he)

/-- R160: with no drain in flight a waiting AUDIT FREEZE takes effect at the end of the event, and is answered. -/
theorem finish_freezes (n : Nat) (p : Part) (r : InProgress) (hi : p.mgu.inProgress = some r)
    (hr : r.phase = .freezing) (hf : p.psu.freeze = .pending) (hd : ∀ st : StationNo, p.psu.posts[st].covered = 0)
    (hq : p.mgu.queue = []) (hroom : p.portU.queue.length < 16) :
    finish (n + 1) ⟨p, []⟩ = ⟨(answered (freezeNow p)).sentU [answerFrame r.code r.tag .done []], []⟩ := by
  have hcheck : freezeCheck ⟨p, []⟩ = ⟨(answered (freezeNow p)).sentU [answerFrame r.code r.tag .done []], []⟩ := by
    simp only [freezeCheck, hi, hr, hf, (anyDrain_false _).mpr hd, and_self, if_true]
    exact sendReply_room r.code r.tag .done [] (setPhase .answering (freezeNow p)) hroom
  have hreset := lineResetCheck_none ⟨(answered (freezeNow p)).sentU [answerFrame r.code r.tag .done []], []⟩ rfl
  have htake := takeRequest_none ⟨(answered (freezeNow p)).sentU [answerFrame r.code r.tag .done []], []⟩ rfl hq
  simp only [finish, settle_done, hcheck, hreset, htake]

/-- R160: while a drain is in flight it waits. -/
theorem finish_waits (n : Nat) (p : Part) (r : InProgress) (st : StationNo) (hi : p.mgu.inProgress = some r)
    (hr : r.phase = .freezing) (hd : 0 < p.psu.posts[st].covered) : finish (n + 1) ⟨p, []⟩ = ⟨p, []⟩ := by
  have hany : anyDrain p.psu = true := by
    rw [← Bool.not_eq_false, anyDrain_false]
    intro h
    exact absurd (h st) (Nat.pos_iff_ne_zero.mp hd)
  have hcheck : freezeCheck ⟨p, []⟩ = ⟨p, []⟩ := by
    simp only [freezeCheck, hi, hany, Bool.true_eq_false, and_false, if_false]
  have hreset : lineResetCheck ⟨p, []⟩ = ⟨p, []⟩ := by simp only [lineResetCheck, hi, hr]
  simp only [finish, settle_done, hcheck, hreset, takeRequest, hi]

/-- The part in PENDING, its AUDIT FREEZE in progress. -/
def pendingFreeze (tag : Byte) (p : Part) : Part :=
  { p with
    psu := { p.psu with freeze := .pending }
    mgu := { p.mgu with inProgress := some ⟨0x3A, tag, .freezing⟩ } }

theorem auditFreeze_pending (tag : Byte) (p : Part) (h : p.psu.freeze ≠ .frozen) :
    carryOut (requestOf tag .auditFreeze) ⟨p.answering (requestOf tag .auditFreeze), []⟩ = ⟨pendingFreeze tag p, []⟩ :=
  if_neg h

/-- Settles O36. -/
theorem auditFreezeWaitsForTheDrains : Obligations.AuditFreezeWaitsForTheDrains := by
  refine ⟨fun tag s h hr => ⟨fun hf => ?_, fun hf hd => ?_, fun st hf hd => ?_⟩,
    fun s r hreset hq hi hp hf hU hD hr => ⟨fun hd => ?_, fun st hd => ?_⟩⟩
  · exact request_report (requestOf tag .auditFreeze) s .frozen [] h hr (if_pos hf)
  · refine (request_ends (requestOf tag .auditFreeze) s ((answered (freezeNow (pendingFreeze tag s.part))).sentU
      [answerFrame 0x3A tag .done []]) h [] ?_ h.2.2.2.2.2.1 h.2.2.2.2.2.2).trans ?_
    · rw [auditFreeze_pending tag s.part hf]
      exact finish_freezes 14 (pendingFreeze tag s.part) _ rfl rfl rfl hd h.2.1 hr
    · have hmgu : ({ s.part.mgu with inProgress := none } : Mgu) = s.part.mgu := by rw [← h.2.2.1]
      simp only [answered, Part.upMgu, freezeNow, Part.upPsu, pendingFreeze, hmgu]
      rfl
  · refine request_ends (requestOf tag .auditFreeze) s (pendingFreeze tag s.part) h [] ?_
      h.2.2.2.2.2.1 h.2.2.2.2.2.2
    rw [auditFreeze_pending tag s.part hf]
    exact finish_waits 14 (pendingFreeze tag s.part) _ st rfl rfl hd
  · refine (live_released s _ hreset).trans ?_
    have hdone : event id s.part = (answered (freezeNow s.part)).sentU [answerFrame r.code r.tag .done []] := by
      simp only [event, Config.requestFuel, id]
      rw [finish_freezes _ s.part r hi hp hf hd hq hr]
      exact closeGroups_none_waiting _ hU hD
    rw [hdone]
    rfl
  · refine (live_released s _ hreset).trans ?_
    have hwait : event id s.part = s.part := by
      simp only [event, Config.requestFuel, id]
      rw [finish_waits _ s.part r st hi hp hd]
      exact closeGroups_none_waiting _ hU hD
    rw [hwait]

/-! ### The thaw -/

theorem foldl_later {α : Type} (f : α → Task) (l : List α) (e : Ev) :
    l.foldl (fun x a => x.later (f a)) e = ⟨e.p, e.todo ++ l.map f⟩ := by
  induction l generalizing e with
  | nil => simp
  | cons a l ih =>
    simp only [List.foldl, ih (e.later (f a)), List.map_cons]
    simp only [Ev.later, List.append_assoc, List.singleton_append]

/-- The buffers after a flush of every station (R162, R163). -/
theorem thawAndFlush_eq (p : Part) : thawAndFlush ⟨p, []⟩ =
    ⟨{ p with psu := { p.psu with
        freeze := .thawed
        freezeTimer := .stopped
        posts := p.psu.posts.map fun x =>
          if x.buffer = [] then x else { x with covered := x.buffer.length, timer := .stopped } } },
      allStations.map Task.station⟩ := by
  have hcover : Posting.coverAll =
      fun x => if x.buffer = [] then x else { x with covered := x.buffer.length, timer := .stopped } :=
    funext coverAll_eq
  have hthaw : (thaw p).psu.freeze ≠ .frozen := fun h => nomatch h
  simp only [thawAndFlush, foldl_later, Ev.map, flushAll_eq _ hthaw, hcover, List.nil_append]
  rfl

/-- Nothing is promoted where no station has anything due. -/
theorem stationTasks_none (p : Part) (h : ∀ st : StationNo, NoneDue p st) :
    ∀ t ∈ allStations.map Task.station, ∀ rest, runTask t ⟨p, rest⟩ = ⟨p, rest⟩ := by
  intro t ht rest
  obtain ⟨st, -, rfl⟩ := List.mem_map.mp ht
  exact examineStation_none st _ (h st)

/-- Settles O37. -/
theorem thawDrainsEveryBuffer : Obligations.ThawDrainsEveryBuffer := by
  rintro s psu h hdue rfl
  refine ⟨fun tag hr => ⟨fun hf => ?_, fun hf => ?_⟩, fun ms hf ht ho => ?_⟩
  · refine request_examined (requestOf tag .auditThaw) s _ (allStations.map Task.station) .done [1] h hr ?_ rfl rfl rfl
      (by decide) (stationTasks_none _ hdue)
    refine congrArg (sendReply _ _) ((if_pos hf).trans ?_)
    rw [thawAndFlush_eq]
    rfl
  · have hne : s.part.psu.freeze ≠ .frozen := by simp [hf]
    exact request_report (requestOf tag .auditThaw) s .done [0] h hr (congrArg (sendReply _ _) (if_neg hne))
  · have hraise := raise_outstanding .freezeExpired none .none (Ev.map ⟨s.part, []⟩ thaw) ho
    have hevent : freezeExpired ⟨s.part, []⟩ = ⟨{ s.part with
        psu := { s.part.psu with
          freeze := .thawed
          freezeTimer := .stopped
          posts := s.part.psu.posts.map fun x =>
            if x.buffer = [] then x else { x with covered := x.buffer.length, timer := .stopped } }
        ntu := joinNotice s.part.ntu .freezeExpired none .none }, allStations.map Task.station⟩ := by
      simp only [freezeExpired, ht, hf, if_true]
      rw [hraise]
      exact thawAndFlush_eq _
    refine (live_released s _ h.1).trans ?_
    rw [event_none _ _ _ _ hevent (by decide) (stationTasks_none _ hdue) h.2.2.1 h.2.1 h.2.2.2.2.2.1 h.2.2.2.2.2.2]

end Sys2Proof.Machine
end

section
/-! PROOF. The water budget: a sample (R132, R143), its timeout (R135) and WATER WRITE (R129). -/

namespace Sys2Proof.Machine

/-! ### The valve rule at a part with no valve frame waiting (R144, R145) -/

theorem sentD_nil (p : Part) : p.sentD [] = p := by simp only [Part.sentD, List.append_nil]

/-- Where the valve stands after the rule, and the frames sent. -/
def ValveMoves (w : Wbu) (node : Nat) (valve : Valve) (moved : List Frame) : Prop :=
  (w.valve = .closed ∧ w.band ≠ .normal ∧ w.freshness = .live ∧ 0 < w.allowance ∧ valve = .opened
      ∧ moved = [toPlant w.consts.plantNode true])
    ∨ (w.valve = .opened ∧ (w.consts.makeupOff ≤ w.level ∨ w.allowance = 0 ∨ w.freshness = .stale) ∧ valve = .closed
      ∧ moved = [toPlant node false])
    ∨ (((w.valve = .closed ∧ (w.band = .normal ∨ w.freshness = .stale ∨ w.allowance = 0))
          ∨ (w.valve = .opened ∧ w.level < w.consts.makeupOff ∧ 0 < w.allowance ∧ w.freshness = .live))
        ∧ valve = w.valve ∧ moved = [])

theorem valveRule_moves (node : Nat) (p : Part) (ts : List Task) (valve : Valve) (moved : List Frame)
    (hq : p.portD.waiting = []) (hr : p.portD.queue.length < 16) (h : ValveMoves p.wbu node valve moved) :
    valveRule node ⟨p, ts⟩ = ⟨Part.sentD { p with wbu := { p.wbu with valve := valve } } moved, ts⟩ := by
  rcases h with ⟨hv, hb, hf, ha, rfl, rfl⟩ | ⟨hv, hc, rfl, rfl⟩ | ⟨hs, rfl, rfl⟩
  · exact valveRule_opens node ⟨p, ts⟩ hq hr hv hb hf ha
  · exact valveRule_closes node ⟨p, ts⟩ hq hr hv hc
  · rw [valveRule_stays node ⟨p, ts⟩ hq hs, sentD_nil]

/-! ### The sample timeout -/

/-- Settles O31. -/
theorem sampleTimeoutMakesTheTankStale : Obligations.SampleTimeoutMakesTheTankStale := by
  rintro s ms u h hr ht ho rfl
  have expires : ∀ (valve : Valve) (moved : List Frame),
      ValveMoves { s.part.wbu with freshness := .stale, sampleTimer := .stopped } s.part.wbu.consts.plantNode valve moved →
      exec .sampleTimeout s = .next (s.withPart (Part.sentD
        { s.part with
          wbu := { s.part.wbu with freshness := .stale, sampleTimer := .stopped, valve := valve }
          ntu := joinNotice s.part.ntu .waterStale none .none } moved)) := by
    intro valve moved hv
    have hraise := raise_outstanding .waterStale none .none
      (Ev.map ⟨s.part, []⟩ fun p => p.upWbu fun u => { u with freshness := .stale, sampleTimer := .stopped }) ho
    refine live_quiet s sampleExpired _ h ?_ rfl rfl rfl
    simp only [sampleExpired, ht]
    rw [hraise]
    exact valveRule_moves _ { s.part with
      wbu := { s.part.wbu with freshness := .stale, sampleTimer := .stopped }
      ntu := joinNotice s.part.ntu .waterStale none .none } [] valve moved h.2.2.2.2.2.2 hr hv
  refine ⟨fun hv => ?_, fun hv => ?_⟩
  · refine (expires .closed [] (.inr (.inr ⟨.inl ⟨hv, .inr (.inl rfl)⟩, hv.symm, rfl⟩))).trans ?_
    rw [sentD_nil, ← hv]
  · exact expires .closed _ (.inr (.inl ⟨hv, .inr (.inr rfl), rfl, rfl⟩))

/-! ### WATER WRITE -/

theorem waterOf_eq (f : WaterFields) : (waterOf f).1 =
    ⟨min 4000000 f.capacity.toNat, min 4000000 f.lowMark.toNat, min 200000 f.hysteresis.toNat,
      min 4000000 f.makeupOn.toNat, min 4000000 f.makeupOff.toNat, max 1 (min 1000 f.turbidityLimit.toNat),
      max 1 (min 60 f.sampleTimeout.toNat), min 4000000 f.dailyAllowance.toNat, f.plantNode.toNat⟩ := by
  simp only [waterOf, clamp_zero, clamp_eq 1 1000 _ (by decide), clamp_eq 1 60 _ (by decide)]

theorem waterOf_clamped (f : WaterFields) : (waterOf f).2 = true ↔
    ¬(f.capacity.toNat ≤ 4000000 ∧ f.lowMark.toNat ≤ 4000000 ∧ f.hysteresis.toNat ≤ 200000
      ∧ f.makeupOn.toNat ≤ 4000000 ∧ f.makeupOff.toNat ≤ 4000000
      ∧ (1 ≤ f.turbidityLimit.toNat ∧ f.turbidityLimit.toNat ≤ 1000)
      ∧ (1 ≤ f.sampleTimeout.toNat ∧ f.sampleTimeout.toNat ≤ 60) ∧ f.dailyAllowance.toNat ≤ 4000000) := by
  simp only [waterOf, Bool.or_eq_true, outside_iff, Nat.zero_le, true_and]
  tauto

theorem marksOk_iff (c : WaterConsts) :
    marksOk c = true ↔ c.lowMark < c.makeupOn ∧ c.makeupOn < c.makeupOff ∧ c.makeupOff ≤ c.capacity := by
  simp only [marksOk, Bool.and_eq_true, decide_eq_true_eq, and_assoc]

/-- The tank under a new table (R129), its plant node changed in a STALE tank only. -/
theorem waterWritten_tank (c : WaterConsts) (p : Part) (w : Wbu) (hw : w = (if p.wbu.freshness = .stale
      then { p.wbu with
        consts := c
        level := min p.wbu.level c.capacity
        sampleTimer := if c.plantNode = p.wbu.consts.plantNode then p.wbu.sampleTimer else .stopped }
      else { p.wbu with
        consts := c
        level := min p.wbu.level c.capacity
        quality := if c.turbidityLimit < p.wbu.turbidity then .upset else .clear
        band := bandAfter c p.wbu.band (min p.wbu.level c.capacity) }))
    (hnode : p.wbu.freshness = .stale ∨ c.plantNode = p.wbu.consts.plantNode) :
    waterWritten c ⟨p, []⟩ = grantScan (valveRule p.wbu.consts.plantNode (holdRule p.wbu ⟨{ p with wbu := w }, []⟩)) := by
  have hlive : p.wbu.freshness = .live ↔ ¬p.wbu.freshness = .stale := by cases p.wbu.freshness <;> simp
  subst hw
  by_cases hs : p.wbu.freshness = .stale
  · have hl : ¬p.wbu.freshness = .live := fun hl => hlive.mp hl hs
    by_cases hn : c.plantNode = p.wbu.consts.plantNode
    · simp only [waterWritten, Ev.map, Part.upWbu, retabled, hs, hn, reduceCtorEq, if_true, if_false]
    · simp only [waterWritten, Ev.map, Part.upWbu, retabled, hs, hn, reduceCtorEq, if_true, if_false]
  · have hl : p.wbu.freshness = .live := hlive.mpr hs
    have hn := hnode.resolve_left hs
    simp only [waterWritten, Ev.map, Part.upWbu, retabled, hl, hn, reduceCtorEq, if_true, if_false]
    rfl

/-- Settles O33. -/
theorem waterWriteReplacesTheTable : Obligations.WaterWriteReplacesTheTable := by
  intro tag f s c h hr hc
  have hce : (waterOf f).1 = c := (waterOf_eq f).trans hc.symm
  refine ⟨fun hbad => ?_, fun hnode h1 h2 h3 hrest w hw hfit hsame hb hq hv hstay => ?_⟩
  · refine request_reads (requestOf tag (.waterWrite f)) s (waterWrite f) .badValue [] h hr (fun _ => rfl) ?_
    by_cases hn : nodeOk f.plantNode.toNat = true
    · have hmarks : ¬marksOk (waterOf f).1 = true := by
        rw [hce, marksOk_iff]
        rw [nodeOk_iff] at hn
        exact (hbad.resolve_left (by omega)).resolve_left (by omega)
      simp only [waterWrite, hn, hmarks, Bool.not_true, Bool.not_false, Bool.false_eq_true, if_true, if_false]
      rfl
    · simp only [waterWrite, hn, Bool.not_false, if_true]
      rfl
  · refine request_table (requestOf tag (.waterWrite f)) s (waterWrite f) { s.part with wbu := w } (waterOf f).2 _ h hr
      (fun _ => rfl) ?_ (waterOf_clamped f) rfl rfl rfl
    have hn : nodeOk f.plantNode.toNat = true := (nodeOk_iff _).mpr hnode
    have hmarks : marksOk (waterOf f).1 = true := by rw [hce, marksOk_iff]; exact ⟨h1, h2, h3⟩
    have hwritten : waterWritten c ⟨s.part.answering (requestOf tag (.waterWrite f)), []⟩ =
        ⟨{ s.part with wbu := w, mgu := (s.part.answering (requestOf tag (.waterWrite f))).mgu }, []⟩ := by
      rw [waterWritten_tank c (s.part.answering _) w hw hsame, holdRule_rest _ _ (fun st => (hrest st).1)
        (fun st => (hrest st).2) hb hq, valveRule_stays _ _ h.2.2.2.2.2.2 (.inl ⟨hv, hstay⟩), grantScan_none _ hfit]
      rfl
    simp only [waterWrite, hn, hmarks, Bool.not_true, Bool.false_eq_true, if_false]
    rw [hce, hwritten]

/-! ### A sample -/

theorem holdCondition_iff (w : Wbu) : holdCondition w = true ↔ w.band = .low ∨ w.quality = .upset := by
  simp only [holdCondition, Bool.or_eq_true, decide_eq_true_eq]

/-- R132 to the hold rule, with ALLOWANCE_OUT not due. -/
theorem takeSample_eq (level turbidity makeup : Nat) (p : Part) (w : Wbu)
    (hw : w = { sampled level turbidity p.wbu with allowance := p.wbu.allowance - makeup })
    (ha : p.wbu.allowance = 0 ∨ makeup < p.wbu.allowance) : takeSample level turbidity makeup ⟨p, []⟩ =
      grantScan (valveRule p.wbu.consts.plantNode (holdRule p.wbu ⟨{ p with wbu := w }, []⟩)) := by
  have hout : ¬(0 < p.wbu.allowance ∧ p.wbu.allowance - makeup = 0) := by omega
  have hset : setAllowance (p.wbu.allowance - makeup) (Ev.map ⟨p, []⟩ fun p => p.upWbu (sampled level turbidity)) =
      ⟨{ p with wbu := w }, []⟩ := by
    subst hw
    exact if_neg hout
  simp only [takeSample]
  rw [hset]

/-- A sample's event behind what the hold rule does (R132, R144, R138, R10). -/
theorem sample_event (dst src : Byte) (level : Word) (turbidity : Half) (makeup : Word) (s : State) (w : Wbu) (q : Part)
    (valve : Valve) (moved : List Frame) (h : Quiet s.part) (hF : ForwardU 0 s.part)
    (hd : dst.toNat ≤ 63) (hs : src.toNat ≤ 62) (hsrc : src.toNat = s.part.wbu.consts.plantNode)
    (hnode : s.part.wbu.consts.plantNode ≠ 0)
    (hw : w = { sampled level.toNat turbidity.toNat s.part.wbu with
      allowance := s.part.wbu.allowance - makeup.toNat })
    (ha : s.part.wbu.allowance = 0 ∨ makeup.toNat < s.part.wbu.allowance) (hfit : NoneFits w)
    (hhold : holdRule s.part.wbu ⟨{ s.part with wbu := w }, []⟩ = ⟨q, []⟩)
    (hqw : q.wbu = w) (hqm : q.mgu = s.part.mgu) (hqU : q.portU = s.part.portU)
    (hqD : q.portD.waiting = []) (hqr : q.portD.queue.length < 16)
    (hv : ValveMoves w s.part.wbu.consts.plantNode valve moved) :
    exec (.waterSample dst src level turbidity makeup) s = .next (s.withPart (Part.sentU (Part.sentD
      { q with wbu := { w with valve := valve } } moved) [⟨dst, src, 0x71, encodeSample level turbidity makeup⟩])) := by
  have hplant : fromPlant s.part src = true := (fromPlant_iff _ _).mpr ⟨hnode, hsrc⟩
  have hevent : takeSample level.toNat turbidity.toNat makeup.toNat ⟨s.part, []⟩ =
      ⟨Part.sentD { q with wbu := { w with valve := valve } } moved, []⟩ := by
    have hvalve := valveRule_moves s.part.wbu.consts.plantNode q [] valve moved hqD hqr (hqw ▸ hv)
    rw [hqw] at hvalve
    rw [takeSample_eq _ _ _ _ w hw ha, hhold, hvalve]
    exact grantScan_none _ hfit
  have hforward := forward_D ⟨dst, src, 0x71, encodeSample level turbidity makeup⟩
    ⟨Part.sentD { q with wbu := { w with valve := valve } } moved, []⟩ (by
      show q.portU.queue.length < 12
      rw [hqU]
      exact hF)
  have hthrough : throughPlant ⟨dst, src, 0x71, encodeSample level turbidity makeup⟩
      (takeSample level.toNat turbidity.toNat makeup.toNat) s.part =
      event (fun e => forward .D ⟨dst, src, 0x71, encodeSample level turbidity makeup⟩
        (reachesWbu src (takeSample level.toNat turbidity.toNat makeup.toNat) e)) s.part := by
    simp only [throughPlant, nodesOk_legal _ _ hd hs, handAll_none .D _ h.2.2.2.2.1, hplant, Bool.not_true,
      Bool.false_eq_true, if_true, if_false]
  refine ((live_released s _ h.1).trans (congrArg (fun p => Host.Outcome.next (s.withPart p)) hthrough)).trans ?_
  refine (live_released s _ h.1).symm.trans (live_quiet s _ _ h ?_ hqm (show q.portU.waiting = _ by rw [hqU])
    (hqD.trans h.2.2.2.2.2.2.symm))
  simp only [reachesWbu, hplant, if_true]
  rw [hevent, hforward]
  rfl

/-- R143 with one order cutting and a hold condition: WATER joins its station's hold set, and the notices that begin. -/
theorem holdRule_holds (before : Wbu) (p q : Part) (st : StationNo) (low upset : Ntu)
    (hc : p.wbu.band = .low ∨ p.wbu.quality = .upset) (ha : p.cpl[st].active ≠ none)
    (hx : ∀ x : StationNo, x ≠ st → p.cpl[x].active = none) (ho : p.ntu.outstanding = true)
    (hl : low = if before.band ≠ .low ∧ p.wbu.band = .low then joinNotice p.ntu .waterLow none .none else p.ntu)
    (hu : upset = if before.quality = .clear ∧ p.wbu.quality = .upset then joinNotice low .waterUpset none .none else low)
    (hq : addHold st .water ⟨p, []⟩ = ⟨q, []⟩) (hn : q.ntu = p.ntu) :
    holdRule before ⟨p, []⟩ = ⟨{ q with ntu := upset }, []⟩ := by
  have hcond : holdCondition p.wbu = true := (holdCondition_iff _).mpr hc
  have hlow : (if before.band ≠ .low ∧ p.wbu.band = .low then raise .waterLow none .none ⟨q, []⟩ else ⟨q, []⟩) =
      (⟨{ q with ntu := low }, []⟩ : Ev) := by
    by_cases hb : before.band ≠ .low ∧ p.wbu.band = .low
    · rw [hl, if_pos hb, if_pos hb, raise_outstanding _ _ _ _ (hn ▸ ho), ← hn]
      rfl
    · rw [hl, if_neg hb, if_neg hb, ← hn]
  have hout : low.outstanding = true := by
    rw [hl]
    split
    · rw [joinNotice_outstanding]
      exact ho
    · exact ho
  simp only [holdRule, hcond, if_true, activeStations_one p st ha hx, List.foldl, hq]
  rw [hlow]
  by_cases hb : before.quality = .clear ∧ p.wbu.quality = .upset
  · rw [if_pos hb] at hu
    rw [if_pos hb, hu, raise_outstanding _ _ _ _ hout]
    rfl
  · rw [if_neg hb] at hu
    rw [if_neg hb, hu]

theorem set_other {α : Type} {n : Nat} (v : Vector α n) (i j : Fin n) (x : α) (h : j ≠ i) : (v.set i x)[j] = v[j] :=
  upd_other v i j (fun _ => x) h.symm

/-- R143 without a hold condition: WATER leaves the one station that holds it. -/
theorem holdRule_leaves (before : Wbu) (p q : Part) (st : StationNo) (hb : p.wbu.band ≠ .low)
    (hc : p.wbu.quality = .clear) (hx : ∀ x : StationNo, x ≠ st → p.stc[x].holds.water = false)
    (hq : removeHold st .water ⟨p, []⟩ = ⟨q, []⟩) (hqx : ∀ x : StationNo, x ≠ st → q.stc[x].holds.water = false) :
    holdRule before ⟨p, []⟩ = ⟨q, []⟩ := by
  have hcond : ¬holdCondition p.wbu = true := by
    rw [holdCondition_iff, hc]
    simp [hb]
  refine (if_neg hcond).trans ?_
  exact removeHold_water_only allStations st _ _ (mem_allStations st) (by decide) hq hx hqx

theorem bandAfter_eq (c : WaterConsts) (before : Band) (level : Nat) : bandAfter c before level =
    if level < (if before = .low then c.lowMark + c.hysteresis else c.lowMark) then .low
    else if level < c.makeupOn then .makeup else .normal := rfl

/-- Settles O30. -/
theorem sampleMovesTheTank : Obligations.SampleMovesTheTank := by
  refine ⟨fun c before level => ?_, ?_⟩
  · rw [bandAfter_eq]
    refine ⟨fun hb h1 => ?_, fun hb h1 h2 => ?_, fun hb h1 h2 => ?_, fun hb h1 => ?_, fun hb h1 h2 => ?_, fun hb h1 h2 => ?_⟩
    · rw [if_pos hb, if_pos h1]
    · rw [if_pos hb, if_neg (by omega), if_pos h2]
    · rw [if_pos hb, if_neg (by omega), if_neg (by omega)]
    · rw [if_neg hb, if_pos h1]
    · rw [if_neg hb, if_neg (by omega), if_pos h2]
    · rw [if_neg hb, if_neg (by omega), if_neg (by omega)]
  · intro dst src level turbidity makeup s w sample valve moved h hD hU hd hs hsrc hnode hw hfit ha hsample hvalve
    have hroom : s.part.portD.queue.length < 16 := by omega
    have hlive : w.freshness = .live := by rw [hw]
    have hconsts : w.consts = s.part.wbu.consts := by rw [hw]
    have hmoves : ValveMoves w s.part.wbu.consts.plantNode valve moved := by
      rcases hvalve with ⟨hv, hb, hal, rfl, rfl⟩ | ⟨hv, hc, rfl, rfl⟩ | ⟨hst, rfl, rfl⟩
      · exact .inl ⟨hv, hb, hlive, hal, rfl, rfl⟩
      · exact .inr (.inl ⟨hv, hc.imp_right .inl, rfl, by rw [hconsts]; rfl⟩)
      · refine .inr (.inr ⟨hst.imp (And.imp_right (Or.imp_right .inr)) ?_, rfl, rfl⟩)
        exact fun ⟨hv, hl, hal⟩ => ⟨hv, hl, hal, hlive⟩
    have samples := fun q hhold hqw hqm hqU hqD hqr => sample_event dst src level turbidity makeup s w q valve moved h hU
      hd hs hsrc hnode hw ha hfit hhold hqw hqm hqU hqD hqr hmoves
    subst hsample
    refine ⟨fun hrest hb hq => samples { s.part with wbu := w } (holdRule_rest _ _ (fun st => (hrest st).1)
      (fun st => (hrest st).2) hb hq) rfl rfl rfl h.2.2.2.2.2.2 hroom, ?_⟩
    rintro st c rfl hp hbehind
    refine ⟨fun a low upset hact hx hnw hcond ho hlow hups =>
        have hactive : s.part.cpl[st].active ≠ none := hact ▸ Option.some_ne_none a
        ⟨fun hrun => ?_, fun hrun => ?_⟩,
      fun hx hheld hwater hband hqual => ⟨fun hpan hcell => ?_, fun hother => ?_⟩⟩
    · have hadd := addHold_holds { s.part with wbu := w } [] st .water hnw hrun h.2.2.2.2.2.2 hbehind hp hroom
      refine (samples _ (holdRule_holds _ _ _ st low upset hcond hactive hx ho hlow hups hadd rfl) rfl rfl rfl
        h.2.2.2.2.2.2 ?_).trans ?_
      · simp only [Part.sentD, List.length_append, List.length_singleton]
        omega
      · simp only [Part.sentD, List.append_assoc, List.singleton_append]
        rfl
    · have hadd := addHold_joins { s.part with wbu := w } [] st .water hnw hrun
      exact samples _ (holdRule_holds _ _ _ st low upset hcond hactive hx ho hlow hups hadd rfl) rfl rfl rfl
        h.2.2.2.2.2.2 hroom
    · have hempty : (s.part.stc[st].holds.put .water false).isEmpty = true := by
        simp only [HoldSet.put, HoldSet.isEmpty, hpan, hcell]
        rfl
      have hleave := removeHold_resumes { s.part with wbu := w } [] st .water hwater hempty hheld h.2.2.2.2.2.2 hbehind hp
        hroom
      have hholds : s.part.stc[st].holds.put .water false = ⟨false, false, false⟩ := by
        simp only [HoldSet.put, hpan, hcell]
      refine (samples _ (holdRule_leaves _ _ _ st hband hqual hx hleave fun x hne => ?_) rfl rfl rfl
        h.2.2.2.2.2.2 ?_).trans ?_
      · rw [← hx x hne]
        exact congrArg (fun c : StationCtx => c.holds.water) (set_other s.part.stc st x _ hne)
      · simp only [Part.sentD, List.length_append, List.length_singleton]
        omega
      · simp only [Part.sentD, List.append_assoc, List.singleton_append, hholds]
    · have hfull : (s.part.stc[st].holds.put .water false).isEmpty = false := by
        simp only [HoldSet.put, HoldSet.isEmpty, Bool.and_eq_false_iff, Bool.not_eq_false']
        rcases hother with hpan | hcell
        · exact .inl (.inr hpan)
        · exact .inr hcell
      have hleave := removeHold_leaves { s.part with wbu := w } [] st .water hwater (.inl hfull)
      have hidle : ¬((s.part.stc[st].holds.put .water false).isEmpty = true ∧ s.part.stc[st].state = .idle) := by
        rw [hfull]
        simp
      refine samples _ (holdRule_leaves _ _ _ st hband hqual hx (hleave.trans (congrArg (Ev.mk _) (if_neg hidle)))
        fun x hne => ?_) rfl rfl rfl h.2.2.2.2.2.2 hroom
      rw [← hx x hne]
      exact congrArg (fun c : StationCtx => c.holds.water) (set_other s.part.stc st x _ hne)

end Sys2Proof.Machine
end

section
/-! PROOF. What an event with examinations comes to, for the frames of the line and for requests; and the station's own
commands, holds, panel and reports (R28 to R38, R86, R87, R90). -/

namespace Sys2Proof.Machine

/-! ### Events to their last examination -/

/-- The examinations asked for come to an end within `n` and leave this part. -/
def Settles (n : Nat) (e : Ev) (q : Part) : Prop := ∀ fuel, n ≤ fuel → settle fuel e = ⟨q, []⟩

theorem settles_done (q : Part) : Settles 0 ⟨q, []⟩ q := fun _ _ => settle_done _ _ rfl

theorem settles_step (n : Nat) (t : Task) (p q : Part) (ts : List Task) (h : Settles n (runTask t ⟨p, ts⟩) q) :
    Settles (n + 1) ⟨p, t :: ts⟩ q := by
  intro fuel hf
  obtain ⟨m, rfl⟩ : ∃ m, fuel = m + 1 := ⟨fuel - 1, by omega⟩
  exact h m (by omega)

theorem settles_none (p : Part) (ts : List Task) (h : ∀ t ∈ ts, ∀ rest, runTask t ⟨p, rest⟩ = ⟨p, rest⟩) :
    Settles ts.length ⟨p, ts⟩ p := fun _ hf => settle_none _ _ _ hf h

/-- The end of an event with no request under way: nothing but its examinations. -/
theorem finish_settles (n k : Nat) (e : Ev) (q : Part) (hs : Settles n e q) (hn : n ≤ Config.eventFuel)
    (hp : q.mgu.inProgress = none) (hq : q.mgu.queue = []) : finish (k + 1) e = ⟨q, []⟩ := by
  simp only [finish, hs _ hn, freezeCheck_none ⟨q, []⟩ hp, lineResetCheck_none ⟨q, []⟩ hp, takeRequest_none ⟨q, []⟩ hp hq]

section Events
variable (s : State) (q : Part) (n : Nat) (h : Quiet s.part) (hn : n ≤ Config.eventFuel)
  (hm : q.mgu = s.part.mgu) (hU : q.portU.waiting = []) (hD : q.portD.waiting = [])
include h hn hm hU hD

theorem event_settles (f : Ev → Ev) (hs : Settles n (f ⟨s.part, []⟩) q) : event f s.part = q := by
  obtain ⟨-, hq, hi, -⟩ := h
  simp only [event, Config.requestFuel]
  rw [finish_settles n _ _ q hs hn (by rw [hm, hi]) (by rw [hm, hq])]
  exact closeGroups_none_waiting _ hU hD

theorem live_settles (f : Ev → Ev) (hs : Settles n (f ⟨s.part, []⟩) q) : live s (event f) = .next (s.withPart q) :=
  (live_released s _ h.1).trans
    (congrArg (fun p => Host.Outcome.next (s.withPart p)) (event_settles s q n h hn hm hU hD f hs))

theorem fromCell_settles (f : Frame) (act : StationNo → Ev → Ev) (st : StationNo) (hd : f.dst.toNat ≤ 63)
    (hsrc : f.src.toNat ≤ 62) (hst : stationOf s.part f.dst = some st) (hs : Settles n (act st ⟨s.part, []⟩) q) :
    live s (fromCell f act) = .next (s.withPart q) :=
  (fromCell_mapped f act s st h hd hsrc hst).trans
    (congrArg (fun p => Host.Outcome.next (s.withPart p)) (event_settles s q n h hn hm hU hD _ hs))

theorem fromSaw_settles (f : Frame) (act : StationNo → Ev → Ev) (st : StationNo) (hd : f.dst.toNat ≤ 63)
    (hsrc : f.src.toNat ≤ 62) (hst : stationOf s.part f.src = some st) (hs : Settles n (act st ⟨s.part, []⟩) q) :
    live s (fromSaw f act) = .next (s.withPart q) :=
  (fromSaw_mapped f act s st h hd hsrc hst).trans
    (congrArg (fun p => Host.Outcome.next (s.withPart p)) (event_settles s q n h hn hm hU hD _ hs))

/-- An act-and-forward frame joins port U's queue behind what its action did, before the examinations. -/
theorem throughSaw_settles (f : Frame) (act : StationNo → Ev → Ev) (st : StationNo) (r : Part) (ts : List Task)
    (hd : f.dst.toNat ≤ 63) (hsrc : f.src.toNat ≤ 62) (hst : stationOf s.part f.src = some st)
    (hact : act st ⟨s.part, []⟩ = ⟨r, ts⟩) (hr : r.portU.queue.length < 12) (hs : Settles n ⟨r.sentU [f], ts⟩ q) :
    live s (throughSaw f act) = .next (s.withPart q) := by
  have hf : forward .D f (act st ⟨s.part, []⟩) = ⟨r.sentU [f], ts⟩ := by
    rw [hact]
    exact forward_D f ⟨r, ts⟩ hr
  refine (throughSaw_mapped f act s st h hd hsrc hst).trans
    (congrArg (fun p => Host.Outcome.next (s.withPart p)) (event_settles s q n h hn hm hU hD _ ?_))
  exact hf.symm ▸ hs

end Events

/-- A request's answer joins port U's queue behind what it did, before the examinations. -/
theorem request_settles (r : Request) (s : State) (p q : Part) (ts : List Task) (n : Nat) (status : Status)
    (bytes : List Byte) (h : Quiet s.part)
    (hc : carryOut r ⟨s.part.answering r, []⟩ =
      sendReply r.code r.tag ⟨⟨{ p with mgu := (s.part.answering r).mgu }, ts⟩, status, bytes⟩)
    (hpm : p.mgu = s.part.mgu) (hr : p.portU.queue.length < 16)
    (hs : Settles n ⟨p.sentU [answerFrame r.code r.tag status bytes], ts⟩ q) (hn : n ≤ Config.eventFuel)
    (hm : q.mgu = s.part.mgu) (hU : q.portU.waiting = []) (hD : q.portD.waiting = []) :
    request r s = .next (s.withPart q) := by
  have hsend : sendReply r.code r.tag ⟨⟨{ p with mgu := (s.part.answering r).mgu }, ts⟩, status, bytes⟩ =
      ⟨p.sentU [answerFrame r.code r.tag status bytes], ts⟩ := by
    simp only [sendReply]
    rw [offer_U _ _ rfl hr]
    have hmgu : ({ (s.part.answering r).mgu with inProgress := none } : Mgu) = p.mgu := by
      rw [hpm]
      show ({ s.part.mgu with inProgress := none } : Mgu) = s.part.mgu
      rw [← h.2.2.1]
    simp only [enter, answerEntered, Ev.map, answered, Part.upMgu, push_U, Part.sentU, hmgu]
  refine request_ends r s q h [] ?_ hU hD
  rw [hc, hsend]
  exact finish_settles n _ _ q hs hn (by rw [hm, h.2.2.1]) (by rw [hm, h.2.1])

/-! ### Station commands -/

/-- A station command is answered behind what it did (R35). -/
theorem commanded_room (st : StationNo) (code : Byte) (act : Ev → Ev) (status : Part → Status) (p q : Part)
    (ts : List Task) (hact : act ⟨p, []⟩ = ⟨q, ts⟩) (hw : p.portU.waiting = []) (hr : q.portU.queue.length < 16) :
    commanded st code act status ⟨p, []⟩ = ⟨q.sentU [commandFrame st code (status p)], ts⟩ := by
  have hwaits : ¬Config.waitingPlaces ≤ (Ev.p ⟨p, []⟩).portU.waits Waiter.isCommandAnswer := by
    simp only [PortState.waits, hw]
    decide
  simp only [commanded, hwaits, if_false, hact]
  rw [offer_U _ _ rfl hr]
  rfl

end Sys2Proof.Machine
end

section
/-! PROOF. The station's own commands, holds, panel and reports (R28 to R38, R86, R87, R90). -/

namespace Sys2Proof.Machine

theorem settles_mono (n m : Nat) (e : Ev) (q : Part) (h : Settles n e q) (hm : n ≤ m) : Settles m e q :=
  fun fuel hf => h fuel (Nat.le_trans hm hf)

theorem settles_at_once (n : Nat) (q : Part) : Settles n ⟨q, []⟩ q := settles_mono 0 n _ _ (settles_done q) (Nat.zero_le n)

/-- An examination of a station with nothing due, where it is asked for. -/
theorem settles_station (st : StationNo) (q : Part) (c : Prop) [Decidable c] (hc : c → NoneDue q st) :
    Settles 1 ⟨q, if c then [] ++ [.station st] else []⟩ q := by
  by_cases h : c
  · rw [if_pos h]
    refine settles_step 0 (.station st) q q [] ?_
    rw [runTask, examineStation_none st ⟨q, []⟩ (hc h)]
    exact settles_done q
  · rw [if_neg h]
    exact settles_at_once 1 q

section Commands
variable (dst src : Byte) (st : StationNo) (s : State) (h : Quiet s.part) (hd : dst.toNat ≤ 63) (hsrc : src.toNat ≤ 62)
include h hd hsrc

/-- A station command with room for its answer, the frames of port D sent and the examinations it asks for found to
leave the part as it is. -/
theorem command_answered (code : Byte) (act : Ev → Ev) (status : Part → Status) (q : Part) (ts : List Task)
    (hst : stationOf s.part dst = some st) (hr : RoomU 1 s.part)
    (hcmd : ∀ e, stationCommand st code e = commanded st code act status e) (hact : act ⟨s.part, []⟩ = ⟨q, ts⟩)
    (hm : q.mgu = s.part.mgu) (hU : q.portU = s.part.portU) (hD : q.portD.waiting = s.part.portD.waiting)
    (hs : Settles 1 ⟨q.sentU [commandFrame st code (status s.part)], ts⟩
      (q.sentU [commandFrame st code (status s.part)])) :
    live s (fromCell ⟨dst, src, 0x22, [code]⟩ fun st => stationCommand st code) =
      .next (s.withPart (q.sentU [commandFrame st code (status s.part)])) := by
  obtain ⟨-, -, -, -, -, hwU, hwD⟩ := id h
  have hw : q.portU.waiting = [] := (congrArg PortState.waiting hU).trans hwU
  refine fromCell_settles s (q.sentU _) 1 h (by decide) hm hw (hD.trans hwD) ⟨dst, src, 0x22, [code]⟩
    (fun st => stationCommand st code) st hd hsrc hst ?_
  rw [hcmd, commanded_room st code act status s.part q ts hact hwU (by rw [hU]; exact hr)]
  exact hs

theorem command_at_once (code : Byte) (act : Ev → Ev) (status : Part → Status) (q : Part)
    (hst : stationOf s.part dst = some st) (hr : RoomU 1 s.part)
    (hcmd : ∀ e, stationCommand st code e = commanded st code act status e) (hact : act ⟨s.part, []⟩ = ⟨q, []⟩)
    (hm : q.mgu = s.part.mgu) (hU : q.portU = s.part.portU) (hD : q.portD.waiting = s.part.portD.waiting) :
    live s (fromCell ⟨dst, src, 0x22, [code]⟩ fun st => stationCommand st code) =
      .next (s.withPart (q.sentU [commandFrame st code (status s.part)])) :=
  command_answered dst src st s h hd hsrc code act status q [] hst hr hcmd hact hm hU hD
    (settles_at_once _ _)

/-- An act-and-forward frame with room, its examinations found to leave the part as it is. -/
theorem saw_forwarded (f : Frame) (act : StationNo → Ev → Ev) (q : Part) (ts : List Task) (hf : f.dst = dst ∧ f.src = src)
    (hst : stationOf s.part src = some st) (hr : ForwardU 0 s.part) (hact : act st ⟨s.part, []⟩ = ⟨q, ts⟩)
    (hm : q.mgu = s.part.mgu) (hU : q.portU = s.part.portU) (hD : q.portD.waiting = s.part.portD.waiting)
    (hs : Settles 2 ⟨q.sentU [f], ts⟩ (q.sentU [f])) :
    live s (throughSaw f act) = .next (s.withPart (q.sentU [f])) := by
  obtain ⟨rfl, rfl⟩ := hf
  obtain ⟨-, -, -, -, -, hwU, hwD⟩ := id h
  have hw : q.portU.waiting = [] := (congrArg PortState.waiting hU).trans hwU
  exact throughSaw_settles s (q.sentU [f]) 2 h (by decide) hm hw (hD.trans hwD) f act st q ts hd hsrc hst hact
    (by rw [hU]; exact hr) hs

theorem saw_at_once (f : Frame) (act : StationNo → Ev → Ev) (q : Part) (hf : f.dst = dst ∧ f.src = src)
    (hst : stationOf s.part src = some st) (hr : ForwardU 0 s.part) (hact : act st ⟨s.part, []⟩ = ⟨q, []⟩)
    (hm : q.mgu = s.part.mgu) (hU : q.portU = s.part.portU) (hD : q.portD.waiting = s.part.portD.waiting) :
    live s (throughSaw f act) = .next (s.withPart (q.sentU [f])) :=
  saw_forwarded dst src st s h hd hsrc f act q [] hf hst hr hact hm hU hD
    (settles_at_once _ _)

end Commands

/-! ### Holds -/

theorem holdCommand_panel (st : StationNo) (e : Ev) (h : e.p.stc[st].owner = .panel) : holdCommand st e = e :=
  if_neg (by rw [h]; decide)

theorem holdCommand_cell (st : StationNo) (e : Ev) (h : e.p.stc[st].owner = .cell) :
    holdCommand st e = addHold st .cell e := if_pos h

theorem resumeCommand_panel (st : StationNo) (e : Ev) (h : e.p.stc[st].owner = .panel) : resumeCommand st e = e :=
  if_neg (by rw [h]; decide)

theorem resumeCommand_cell (st : StationNo) (e : Ev) (h : e.p.stc[st].owner = .cell) :
    resumeCommand st e = removeHold st .cell e := if_pos h

theorem ownerStatus_panel (st : StationNo) (p : Part) (h : p.stc[st].owner = .panel) : ownerStatus st p = .notOwner :=
  if_neg (by rw [h]; decide)

theorem ownerStatus_cell (st : StationNo) (p : Part) (h : p.stc[st].owner = .cell) : ownerStatus st p = .done :=
  if_pos h

/-- Settles O46: what the reason does to the hold set, its frame to the saw, and the answer or the forwarded frame. -/
theorem holdReasonsPauseAndResumeTheSaw : Obligations.HoldReasonsPauseAndResumeTheSaw := by
  refine ⟨?_, ?_⟩
  · rintro dst src st s c answer held added h hd hsrc rfl hprog hbehind hroom hanswer hadded hheld
    have hroom' : s.part.portD.queue.length < 16 := hroom
    refine ⟨fun hst hr => ?_, fun hst hr => ?_⟩
    · have answers := fun q => command_at_once dst src st s h hd hsrc 1 (holdCommand st) (ownerStatus st) q hst hr
        fun _ => rfl
      refine ⟨fun ho => ?_, fun ho => ?_⟩
      · refine (answers s.part (holdCommand_panel st _ ho) rfl rfl rfl).trans ?_
        rw [ownerStatus_panel st _ ho, hanswer]
        rfl
      · rw [ownerStatus_cell st _ ho, show commandFrame st 1 .done = answer 0 from (hanswer 0).symm] at answers
        have adds := holdCommand_cell st ⟨s.part, []⟩ ho
        refine ⟨fun hc => ?_, fun hc hs => ?_, fun hc hs => ?_⟩
        · exact answers s.part (adds.trans (addHold_present st .cell _ hc)) rfl rfl rfl
        · rw [hadded]
          exact answers _ (adds.trans (addHold_joins s.part [] st .cell hc hs)) rfl rfl rfl
        · rw [hheld]
          exact answers _ (adds.trans (addHold_holds s.part [] st .cell hc hs h.2.2.2.2.2.2 hbehind hprog hroom'))
            rfl rfl rfl
    · have forwards := fun q => saw_at_once dst src st s h hd hsrc ⟨dst, src, 0x66, []⟩ (fun st => addHold st .panel) q
        ⟨rfl, rfl⟩ hst hr
      refine ⟨fun hc => ?_, fun hc hs => ?_, fun hc hs => ?_⟩
      · exact forwards s.part (addHold_present st .panel _ hc) rfl rfl rfl
      · rw [hadded]
        exact forwards _ (addHold_joins s.part [] st .panel hc hs) rfl rfl rfl
      · rw [hheld]
        exact forwards _ (addHold_holds s.part [] st .panel hc hs h.2.2.2.2.2.2 hbehind hprog hroom') rfl rfl rfl
  · rintro dst src st s c answer goesOn left h hd hsrc rfl hprog hbehind hroom hanswer hleft hgoes
    have hroom' : s.part.portD.queue.length < 16 := hroom
    have empties : ∀ r : Reason, (s.part.stc[st].holds.put r false).isEmpty = true → ∀ rest : Prop,
        (s.part.stc[st].holds.put r false).isEmpty = false ∨ rest → rest := by
      intro r he rest hor
      exact hor.resolve_left (by rw [he]; decide)
    refine ⟨fun hst hr => ?_, fun hst hr => ?_⟩
    · have answers := fun q ts => command_answered dst src st s h hd hsrc 2 (resumeCommand st) (ownerStatus st) q ts hst hr
        fun _ => rfl
      refine ⟨fun ho => ?_, fun ho => ?_⟩
      · refine (command_at_once dst src st s h hd hsrc 2 (resumeCommand st) (ownerStatus st) s.part hst hr (fun _ => rfl)
          (resumeCommand_panel st _ ho) rfl rfl rfl).trans ?_
        rw [ownerStatus_panel st _ ho, hanswer]
        rfl
      · rw [ownerStatus_cell st _ ho, show commandFrame st 2 .done = answer 0 from (hanswer 0).symm] at answers
        have removes := resumeCommand_cell st ⟨s.part, []⟩ ho
        refine ⟨fun hc => ?_, fun hc hs => ?_, fun hc hw hp hs => ?_⟩
        · exact answers s.part [] (removes.trans (removeHold_absent st .cell _ hc)) rfl rfl rfl
            (settles_at_once _ _)
        · have hfull : (s.part.stc[st].holds.put .cell false).isEmpty = false
              ∨ (s.part.stc[st].state ≠ .held ∧ (s.part.stc[st].state = .idle → NoneDue s.part st)) := by
            simp only [HoldSet.put, HoldSet.isEmpty, Bool.and_eq_false_iff, Bool.not_eq_false']
            tauto
          rw [hleft]
          refine answers _ _ (removes.trans (removeHold_leaves s.part [] st .cell hc (hfull.imp_right And.left))) rfl rfl rfl
            (settles_station st _ _ fun hi => ?_)
          exact (empties .cell hi.1 _ hfull).2 hi.2
        · have hempty : (s.part.stc[st].holds.put .cell false).isEmpty = true := by
            simp only [HoldSet.put, HoldSet.isEmpty, hw, hp]
            rfl
          have hset : s.part.stc[st].holds.put .cell false = ⟨false, false, false⟩ := by simp only [HoldSet.put, hw, hp]
          rw [hgoes, ← hset]
          exact answers _ _ (removes.trans (removeHold_resumes s.part [] st .cell hc hempty hs h.2.2.2.2.2.2 hbehind hprog
            hroom')) rfl rfl rfl (settles_at_once _ _)
    · have forwards := fun q ts => saw_forwarded dst src st s h hd hsrc ⟨dst, src, 0x67, []⟩
        (fun st => removeHold st .panel) q ts ⟨rfl, rfl⟩ hst hr
      refine ⟨fun hc => ?_, fun hc hs => ?_, fun hc hw hp hs => ?_⟩
      · exact forwards s.part [] (removeHold_absent st .panel _ hc) rfl rfl rfl (settles_at_once _ _)
      · have hfull : (s.part.stc[st].holds.put .panel false).isEmpty = false
            ∨ (s.part.stc[st].state ≠ .held ∧ (s.part.stc[st].state = .idle → NoneDue s.part st)) := by
          simp only [HoldSet.put, HoldSet.isEmpty, Bool.and_eq_false_iff, Bool.not_eq_false']
          tauto
        rw [hleft]
        refine forwards _ _ (removeHold_leaves s.part [] st .panel hc (hfull.imp_right And.left)) rfl rfl rfl
          (settles_mono 1 2 _ _ (settles_station st _ _ fun hi => ?_) (by decide))
        exact (empties .panel hi.1 _ hfull).2 hi.2
      · have hempty : (s.part.stc[st].holds.put .panel false).isEmpty = true := by
          simp only [HoldSet.put, HoldSet.isEmpty, hw, hp]
          rfl
        have hset : s.part.stc[st].holds.put .panel false = ⟨false, false, false⟩ := by simp only [HoldSet.put, hw, hp]
        rw [hgoes, ← hset]
        exact forwards _ _ (removeHold_resumes s.part [] st .panel hc hempty hs h.2.2.2.2.2.2 hbehind hprog
          hroom') rfl rfl rfl (settles_at_once _ _)

end Sys2Proof.Machine
end

section
/-! PROOF. Stop entries (R86, R87), the panel (R31, R32) and the saw's reports (R90). -/

namespace Sys2Proof.Machine

/-! ### Stop entries -/

theorem abortCommand_outside (st : StationNo) (e : Ev) (h1 : e.p.stc[st].state ≠ .running)
    (h2 : e.p.stc[st].state ≠ .held) : abortCommand st e = e := if_neg (not_or.mpr ⟨h1, h2⟩)

theorem abortCommand_stops (st : StationNo) (e : Ev) (a : Active)
    (h : e.p.stc[st].state = .running ∨ e.p.stc[st].state = .held) (ha : e.p.cpl[st].active = some a) :
    abortCommand st e = stopEntry st a .aborted e := by
  refine (if_pos h).trans ?_
  simp only [ha]

theorem overrunExpired_running (st : StationNo) (e : Ev) (a : Active) (ms : Nat) (ht : e.p.cpl[st].overrun = .running ms)
    (ha : e.p.cpl[st].active = some a) :
    overrunExpired st e = raise .cutOverrun (some st) (.slot a.order.slot) (stopEntry st a .overrun e) := by
  simp only [overrunExpired, ht, ha]

theorem overrunExpired_stopped (st : StationNo) (e : Ev) (ht : e.p.cpl[st].overrun = .stopped) :
    overrunExpired st e = e := by
  simp only [overrunExpired, ht]

theorem discardPause_none (st : StationNo) (p : Part) (h : p.portD.waiting = []) :
    discardPause st p = p.upStc st fun c => { c with behind := none } :=
  discard_none .D (Waiter.isPauseOf st) (p.upStc st fun c => { c with behind := none }) h

theorem stopEntered_loads (st : StationNo) (f : SawFrame) (p : Part) (a : Active) (ha : p.cpl[st].active = some a)
    (hs : a.stop.isSome) (hf : f.ticket = some a.ticket) :
    stopEntered st f p = p.upCpl st fun c => { c with stop := .running (p.pipe.stopTimeout * 1000) } := by
  simp only [stopEntered, ha]
  exact if_pos ⟨hs, hf⟩

theorem upCpl_eq_set (p : Part) (st : StationNo) (f : Pipeline → Pipeline) :
    p.upCpl st f = { p with cpl := p.cpl.set st (f p.cpl[st]) } := rfl

theorem upStc_eq_set (p : Part) (st : StationNo) (f : StationCtx → StationCtx) :
    p.upStc st f = { p with stc := p.stc.set st (f p.stc[st]) } := rfl

theorem set_same {α : Type} {n : Nat} (v : Vector α n) (i : Fin n) (x : α) : (v.set i x)[i] = x :=
  upd_same v i fun _ => x

/-- R87: the SAW STOP enters at once and starts the stop timer. -/
theorem stopEntry_alone (st : StationNo) (a : Active) (why : StopReason) (p : Part) (hf : p.cpl[st].frames = [])
    (hw : p.portD.waiting = []) (hr : p.portD.queue.length < 16) :
    stopEntry st a why ⟨p, []⟩ = ⟨Part.sentD
      { p with
        stc := p.stc.set st { p.stc[st] with state := .stopping, behind := none }
        cpl := p.cpl.set st
          { p.cpl[st] with
            active := some { a with stop := some why }
            overrun := .stopped
            stop := .running (p.pipe.stopTimeout * 1000) } }
      [⟨BitVec.ofNat 8 p.map[st].node, 1, 0x47, []⟩], []⟩ := by
  let marked : Pipeline := { p.cpl[st] with active := some { a with stop := some why }, overrun := .stopped }
  let q : Part := { p with
    stc := p.stc.set st { p.stc[st] with state := .stopping, behind := none }
    cpl := p.cpl.set st marked }
  have hdiscard : discardPause st ((p.upCpl st fun c =>
      { c with active := some { a with stop := some why }, overrun := .stopped }).upStc st fun c =>
        { c with state := .stopping }) = q := by
    refine (discardPause_none st _ (by exact hw)).trans ?_
    simp only [upStc_eq_set, upCpl_eq_set, set_same, Vector.set_set, q, marked]
  have hcpl : q.cpl[st] = marked := set_same p.cpl st marked
  have hloads := stopEntered_loads st ⟨.stop, some a.ticket, toSaw q st SawKind.stop.code []⟩
    (push .D (toSaw q st SawKind.stop.code []) q) { a with stop := some why } (congrArg Pipeline.active hcpl) rfl rfl
  simp only [stopEntry, Ev.map]
  rw [hdiscard, placeSaw_alone st .stop (some a.ticket) [] ⟨q, []⟩ ((congrArg Pipeline.frames hcpl).trans hf) hr]
  simp only [sawEntered, Ev.map]
  rw [hloads, upCpl_eq_set]
  simp only [push_D, Part.sentD, hcpl, q, Vector.set_set]
  rfl

/-- Settles O47. -/
theorem stopEntriesStopTheSaw : Obligations.StopEntriesStopTheSaw := by
  intro dst src st s answer stopping h hd hsrc hanswer hstopping
  refine ⟨fun hst hr => ⟨fun h1 h2 => ?_, fun a hs ha hf hroom => ?_, fun code hcode => ?_⟩,
    fun a ms ha hf hroom ht ho => ?_, fun ht => ?_⟩
  · rw [hanswer]
    exact command_at_once dst src st s h hd hsrc 3 (abortCommand st) (fun _ => .done) s.part hst hr (fun _ => rfl)
      (abortCommand_outside st _ h1 h2) rfl rfl rfl
  · rw [hanswer, hstopping]
    exact command_at_once dst src st s h hd hsrc 3 (abortCommand st) (fun _ => .done) _ hst hr (fun _ => rfl)
      ((abortCommand_stops st _ a hs ha).trans (stopEntry_alone st a .aborted s.part hf h.2.2.2.2.2.2 hroom)) rfl rfl rfl
  · have hcmd : ∀ e, stationCommand st code e = commanded st code id (fun _ => .badValue) e := by
      intro e
      unfold stationCommand
      split
      all_goals first | omega | rfl
    rw [hanswer]
    exact command_at_once dst src st s h hd hsrc code id (fun _ => .badValue) s.part hst hr hcmd rfl rfl rfl rfl
  · rw [hstopping]
    have hraise := raise_outstanding .cutOverrun (some st) (.slot a.order.slot)
      (stopEntry st a .overrun ⟨s.part, []⟩) (by
        rw [stopEntry_alone st a .overrun s.part hf h.2.2.2.2.2.2 hroom]
        exact ho)
    refine live_quiet s (overrunExpired st) _ h ?_ rfl rfl rfl
    rw [overrunExpired_running st ⟨s.part, []⟩ a ms ht ha, hraise,
      stopEntry_alone st a .overrun s.part hf h.2.2.2.2.2.2 hroom]
    rfl
  · exact live_quiet s (overrunExpired st) s.part h (overrunExpired_stopped st _ ht) rfl rfl rfl

/-! ### The panel -/

theorem unstageOnDeck_none (st : StationNo) (e : Ev) (h : ∀ d, e.p.cpl[st].onDeck = some d → d.staged = none) :
    unstageOnDeck st e = e := by
  simp only [unstageOnDeck]
  cases hd : e.p.cpl[st].onDeck with
  | none => rfl
  | some d => simp only [h d hd]

/-- R80: a staged order whose CUT STAGE has entered is unstaged by a CUT UNSTAGE. -/
theorem unstageOnDeck_staged (st : StationNo) (d : OnDeck) (number : Byte) (p : Part) (ts : List Task)
    (hd : p.cpl[st].onDeck = some d) (hn : d.staged = some number) (hf : p.cpl[st].frames = []) (hr : p.portD.queue.length < 16) :
    unstageOnDeck st ⟨p, ts⟩ = ⟨Part.sentD
      { p with cpl := p.cpl.set st { p.cpl[st] with onDeck := some { d with staged := none } } }
      [⟨BitVec.ofNat 8 p.map[st].node, 1, 0x44, [number]⟩], ts⟩ := by
  let q : Part := { p with cpl := p.cpl.set st { p.cpl[st] with onDeck := some { d with staged := none } } }
  have hq : q.cpl[st].frames = [] := (congrArg Pipeline.frames (set_same p.cpl st _)).trans hf
  have hplace := placeSaw_alone st .unstage (some number) [number] ⟨q, ts⟩ hq hr
  have hunstage : unstage st number ⟨q, ts⟩ = placeSaw st .unstage (some number) [number] ⟨q, ts⟩ := by
    simp only [unstage, hq, List.any_nil, Bool.false_eq_true, if_false]
  have hon : unstageOnDeck st ⟨p, ts⟩ = unstage st number ⟨q, ts⟩ := by
    simp only [unstageOnDeck, hd, hn, Ev.map]
    rfl
  rw [hon, hunstage, hplace]
  rfl

/-- R34: a PANEL ANSWER enters at once. -/
theorem panelAnswer_room (st : StationNo) (accepted : Bool) (p : Part) (ts : List Task) (hw : p.portD.waiting = [])
    (hr : p.portD.queue.length < 16) :
    panelAnswer st accepted ⟨p, ts⟩ = ⟨p.sentD [panelFrame p st accepted], ts⟩ := by
  have hnone : p.portD.anyWaits (Waiter.isPanelOf st) = false := by simp only [PortState.anyWaits, hw, List.any_nil]
  simp only [panelAnswer, hnone, Bool.false_eq_true, if_false]
  rw [offer_D _ _ rfl hr]
  rfl

theorem panelClaimed_first (st : StationNo) (e : Ev) (hs : e.p.stc[st].state = .service ∨ e.p.stc[st].state = .idle)
    (ho : e.p.stc[st].owner = .cell) : panelClaimed st e =
      raise .panelClaimed (some st) .none
        (panelAnswer st true (unstageOnDeck st (e.map fun p => p.upStc st fun x => { x with owner := .panel }))) :=
  (if_pos hs).trans (if_pos ho)

theorem panelClaimed_again (st : StationNo) (e : Ev) (hs : e.p.stc[st].state = .service ∨ e.p.stc[st].state = .idle)
    (ho : e.p.stc[st].owner = .panel) : panelClaimed st e = panelAnswer st true e :=
  (if_pos hs).trans (if_neg (by rw [ho]; decide))

theorem panelClaimed_refused (st : StationNo) (e : Ev) (h1 : e.p.stc[st].state ≠ .service)
    (h2 : e.p.stc[st].state ≠ .idle) : panelClaimed st e = panelAnswer st false e := if_neg (not_or.mpr ⟨h1, h2⟩)

theorem panelReleased_panel (st : StationNo) (e : Ev) (h : e.p.stc[st].owner = .panel) : panelReleased st e =
    ((e.map fun p => p.upStc st fun x => { x with owner := .cell }).later (.claim st)).later (.station st) := if_pos h

theorem panelReleased_cell (st : StationNo) (e : Ev) (h : e.p.stc[st].owner = .cell) : panelReleased st e = e :=
  if_neg (by rw [h]; decide)

/-- Settles O48. -/
theorem panelClaimsAndReleases : Obligations.PanelClaimsAndReleases := by
  rintro dst src st s c answer h hd hsrc hst hU rfl hanswer
  have claims := fun q => saw_at_once dst src st s h hd hsrc ⟨dst, src, 0x64, []⟩ (fun st => panelClaimed st) q ⟨rfl, rfl⟩
    hst hU
  have raises := fun (q : Part) (ho : q.ntu.outstanding = true) =>
    raise_outstanding .panelClaimed (some st) .none ⟨q, []⟩ ho
  refine ⟨fun hs ho hr hstaged hout => ?_, fun d number hs ho hr hon hstaged hf hout => ?_, fun hs ho hr => ?_,
    fun h1 h2 hr => ?_, fun ho hdue => ?_, fun ho => ?_⟩
  · let q : Part := { s.part with stc := s.part.stc.set st { s.part.stc[st] with owner := .panel } }
    have hun : unstageOnDeck st ⟨q, []⟩ = ⟨q, []⟩ := unstageOnDeck_none st ⟨q, []⟩ hstaged
    have hans := panelAnswer_room st true q [] h.2.2.2.2.2.2 hr
    refine claims _ ((panelClaimed_first st ⟨s.part, []⟩ hs ho).trans ?_) rfl rfl rfl
    show raise _ _ _ (panelAnswer st true (unstageOnDeck st ⟨q, []⟩)) = _
    rw [hun, hans, raises (q.sentD _) hout, hanswer]
    rfl
  · let q : Part := { s.part with stc := s.part.stc.set st { s.part.stc[st] with owner := .panel } }
    have hroom : q.portD.queue.length < 16 := Nat.lt_of_lt_of_le (Nat.lt_add_of_pos_right (by decide)) hr
    have hun := unstageOnDeck_staged st d number q [] hon hstaged hf hroom
    have hans := panelAnswer_room st true (Part.sentD
      { q with cpl := q.cpl.set st { q.cpl[st] with onDeck := some { d with staged := none } } }
      [⟨BitVec.ofNat 8 q.map[st].node, 1, 0x44, [number]⟩]) [] h.2.2.2.2.2.2 (by
        simp only [Part.sentD, List.length_append, List.length_singleton]
        exact hr)
    refine claims _ ((panelClaimed_first st ⟨s.part, []⟩ hs ho).trans ?_) rfl rfl rfl
    show raise _ _ _ (panelAnswer st true (unstageOnDeck st ⟨q, []⟩)) = _
    rw [hun, hans, raises (Part.sentD (Part.sentD _ _) _) (by exact hout), sentD_sentD, hanswer]
    rfl
  · rw [hanswer]
    exact claims _ ((panelClaimed_again st ⟨s.part, []⟩ hs ho).trans
      (panelAnswer_room st true s.part [] h.2.2.2.2.2.2 hr)) rfl rfl rfl
  · rw [hanswer]
    exact claims _ ((panelClaimed_refused st ⟨s.part, []⟩ h1 h2).trans
      (panelAnswer_room st false s.part [] h.2.2.2.2.2.2 hr)) rfl rfl rfl
  · exact saw_forwarded dst src st s h hd hsrc ⟨dst, src, 0x65, []⟩ (fun st => panelReleased st) _ [.claim st, .station st]
      ⟨rfl, rfl⟩ hst hU (panelReleased_panel st ⟨s.part, []⟩ ho) rfl rfl rfl
      (settles_none _ [.claim st, .station st] (by exact examinations_none st _ hdue))
  · exact saw_at_once dst src st s h hd hsrc ⟨dst, src, 0x65, []⟩ (fun st => panelReleased st) s.part ⟨rfl, rfl⟩ hst hU
      (panelReleased_cell st ⟨s.part, []⟩ ho) rfl rfl rfl

/-! ### The saw's reports -/

theorem isReported_iff (c : Pipeline) (ticket : Byte) : isReported c ticket = true ↔
    (∃ a, c.active = some a ∧ a.ticket = ticket) ∧ programWaits c = false := by
  simp only [isReported, Bool.and_eq_true, Bool.not_eq_true', Option.any_eq_true, decide_eq_true_eq]

theorem isReported_false (c : Pipeline) (ticket : Byte)
    (h : (∀ a, c.active = some a → a.ticket ≠ ticket) ∨ programWaits c = true) : isReported c ticket = false := by
  rw [Bool.eq_false_iff, Ne, isReported_iff]
  rintro ⟨⟨a, ha, ht⟩, hp⟩
  rcases h with h | h
  · exact h a ha ht
  · rw [h] at hp
    cases hp

theorem doneReported_late (st : StationNo) (ticket outcome : Byte) (run : Nat) (e : Ev)
    (h : isReported e.p.cpl[st] ticket = false) : doneReported st ticket outcome run e =
      raise .lateDone (some st) .none e := by
  simp only [doneReported]
  cases ha : e.p.cpl[st].active with
  | none => rfl
  | some a => simp only [h, Bool.not_false, if_true]

/-- Settles O49. -/
theorem reportsNameTheActiveTicket : Obligations.ReportsNameTheActiveTicket := by
  intro dst src ticket st s h hd hsrc hst
  refine ⟨fun pass hU => ?_, fun outcome run hlate ho => ?_⟩
  · have passes := fun q (hq : passReported st ticket pass s.part = q) => saw_at_once dst src st s h hd hsrc
      ⟨dst, src, 0x62, [ticket, pass]⟩ (fun st e => e.map (passReported st ticket pass)) q ⟨rfl, rfl⟩ hst hU
      (congrArg (Ev.mk · []) hq)
    refine ⟨fun a ha ht hp h1 h32 => ?_, fun hno => ?_⟩
    · have hrep : isReported s.part.cpl[st] ticket = true := (isReported_iff _ _).mpr ⟨⟨a, ha, ht⟩, hp⟩
      refine passes _ ?_ rfl rfl rfl
      simp only [passReported, hrep, h1, h32, decide_true, Bool.and_self, if_true, upCpl_eq_set, ha, Option.map_some]
    · refine passes s.part (if_neg ?_) rfl rfl rfl
      rw [Bool.and_eq_true, Bool.and_eq_true, decide_eq_true_eq, decide_eq_true_eq]
      rintro ⟨⟨hrep, h1⟩, h32⟩
      rcases hno with hno | hno | hno | hno
      · rw [isReported_false _ _ (.inl hno)] at hrep
        cases hrep
      · rw [isReported_false _ _ (.inr hno)] at hrep
        cases hrep
      · omega
      · omega
  · have hraise := raise_outstanding .lateDone (some st) .none ⟨s.part, []⟩ ho
    refine fromSaw_settles s { s.part with ntu := joinNotice s.part.ntu .lateDone (some st) .none } 0 h (by decide) rfl
      h.2.2.2.2.2.1 h.2.2.2.2.2.2 ⟨dst, src, 0x61, encodeCutDone ticket outcome run⟩ (fun st => doneReported st ticket outcome run.toNat) st hd hsrc hst ?_
    rw [doneReported_late st ticket outcome run.toNat ⟨s.part, []⟩ (isReported_false _ _ hlate), hraise]
    exact settles_done _

end Sys2Proof.Machine
end

section
/-! PROOF. Rings of no order, of one and of two: what their queries find, and what writing, closing and passing an order
does to them (R40, R41, R44, R47, R48, R57). -/

namespace Sys2Proof.Machine

/-! ### Slots in use -/

theorem inUse_empty (r : Ring) (h : r.producer = r.consumer) : r.inUse = [] := by
  simp only [Ring.inUse, Ring.used, h, sub_self]
  rfl

theorem inUse_one (r : Ring) (h : r.producer = r.consumer + 1) : r.inUse = [r.consumer] := by
  have hused : r.used = 1 := by
    simp only [Ring.used, h, add_sub_cancel_left]
    rfl
  rw [Ring.inUse, hused]
  show [r.consumer + 0] = _
  rw [add_zero]

theorem inUse_two (r : Ring) (h : r.producer = r.consumer + 1 + 1) : r.inUse = [r.consumer, r.consumer + 1] := by
  have hused : r.used = 2 := by
    simp only [Ring.used, h, add_assoc, add_sub_cancel_left]
    rfl
  rw [Ring.inUse, hused]
  show [r.consumer + 0, r.consumer + 1] = _
  rw [add_zero]

theorem not_full_empty (r : Ring) (h : r.producer = r.consumer) : r.producer + 1 ≠ r.consumer := by
  rw [h]
  simp

theorem isEmpty_one (r : Ring) (h : r.producer = r.consumer + 1) : r.isEmpty = false := by
  simp [Ring.isEmpty, h]

theorem isEmpty_two (r : Ring) (h : r.producer = r.consumer + 1 + 1) : r.isEmpty = false := by
  have : r.consumer + 1 + 1 ≠ r.consumer := by
    rw [add_assoc]
    simp
  simp [Ring.isEmpty, h, this]

theorem isEmpty_empty (r : Ring) (h : r.producer = r.consumer) : r.isEmpty = true := by simp [Ring.isEmpty, h]

/-! ### Open orders and members -/

theorem openOrders_empty (r : Ring) (h : r.producer = r.consumer) : r.openOrders = [] := by
  simp only [Ring.openOrders, inUse_empty r h, List.filterMap_nil]

theorem filterMap_cons_toList {α β : Type} (f : α → Option β) (a : α) (l : List α) :
    (a :: l).filterMap f = (f a).toList ++ l.filterMap f := by
  cases h : f a <;> simp [h]

theorem openOrders_one (r : Ring) (h : r.producer = r.consumer + 1) :
    r.openOrders = (r.slots[r.consumer].filter OrderRec.isOpen).toList := by
  rw [Ring.openOrders, inUse_one r h, filterMap_cons_toList]
  exact List.append_nil _

theorem openOrders_two (r : Ring) (h : r.producer = r.consumer + 1 + 1) :
    r.openOrders = (r.slots[r.consumer].filter OrderRec.isOpen).toList
      ++ (r.slots[r.consumer + 1].filter OrderRec.isOpen).toList := by
  rw [Ring.openOrders, inUse_two r h, filterMap_cons_toList, filterMap_cons_toList]
  exact congrArg (_ ++ ·) (List.append_nil _)

theorem isOpen_queued (x : OrderRec) (h : x.state = .queued) : x.isOpen = true := by simp only [OrderRec.isOpen, h]

theorem toList_open (x : OrderRec) (h : x.isOpen = true) : ((some x).filter OrderRec.isOpen).toList = [x] := by
  rw [Option.filter_some, if_pos h]
  rfl

theorem toList_closed (x : OrderRec) (h : x.isOpen = false) : ((some x).filter OrderRec.isOpen).toList = [] := by
  rw [Option.filter_some, if_neg (by rw [h]; decide)]
  rfl

theorem openOrders_single (r : Ring) (x : OrderRec) (h : r.producer = r.consumer + 1) (hx : r.slots[r.consumer] = some x)
    (ho : x.isOpen = true) : r.openOrders = [x] := by
  rw [openOrders_one r h, hx, toList_open x ho]

/-- A chain list loses the chains without an open member. -/
theorem prune_eq (r : Ring) : r.prune =
    { r with chains := r.chains.filter fun c => r.openOrders.any fun o => decide (o.chain = c.id) } := by
  have : ∀ c : Chain, (!(r.members c.id).isEmpty) = r.openOrders.any fun o => decide (o.chain = c.id) := by
    intro c
    rw [Bool.eq_iff_iff]
    simp [Ring.members]
  simp only [Ring.prune, this]

theorem prune_none (r : Ring) (h : r.openOrders = []) : r.prune = { r with chains := [] } := by
  rw [prune_eq, h]
  simp only [List.any_nil, List.filter_false]

/-! ### The head of the ring (R41) -/

theorem headSpent_empty (r : Ring) (h : r.producer = r.consumer) : r.headSpent = false := by
  simp only [Ring.headSpent, isEmpty_empty r h, Bool.not_true, Bool.false_and]

theorem headSpent_eq (r : Ring) (x : OrderRec) (h : r.isEmpty = false) (hx : r.slots[r.consumer] = some x) :
    r.headSpent = (!x.isOpen && x.entered) := by
  simp only [Ring.headSpent, h, hx, Bool.not_false, Bool.true_and, Option.any_some]

theorem headAdmitted_empty (r : Ring) (h : r.producer = r.consumer) : r.headAdmitted = none := by
  simp only [Ring.headAdmitted, isEmpty_empty r h, if_true]

theorem headAdmitted_eq (r : Ring) (x : OrderRec) (h : r.isEmpty = false) (hx : r.slots[r.consumer] = some x) :
    r.headAdmitted = if x.state = .admitted then some x else none := by
  simp only [Ring.headAdmitted, h, hx, Bool.false_eq_true, if_false, Option.filter_some, decide_eq_true_eq]

/-- An order that has closed and whose record has entered. -/
def OrderRec.spent (x : OrderRec) (outcome : CutOutcome) : OrderRec :=
  { x with state := .closed outcome, remaining := 0, entered := true }

/-- The one order of a ring, closed with its record entered, is passed. -/
theorem passSpent_one (r : Ring) (x : OrderRec) (h : r.producer = r.consumer + 1) (hx : r.slots[r.consumer] = some x)
    (ho : x.isOpen = false) (he : x.entered = true) (n : Nat) :
    r.passSpent (n + 1) = { r with slots := r.slots.set r.consumer none, consumer := r.consumer + 1 } := by
  have hspent : r.headSpent = true := by rw [headSpent_eq r x (isEmpty_one r h) hx, ho, he]; rfl
  have hafter : r.advance.headSpent = false := headSpent_empty _ h
  simp only [Ring.passSpent, hspent, if_true]
  exact passSpent_none n _ hafter

/-- The two orders of a ring, both closed with their records entered, are passed. -/
theorem passSpent_two (r : Ring) (j : SlotNo) (x y : OrderRec) (hj : j = r.consumer + 1) (h : r.producer = j + 1)
    (hx : r.slots[r.consumer] = some x) (hxo : x.isOpen = false) (hxe : x.entered = true)
    (hy : r.slots[j] = some y) (hyo : y.isOpen = false) (hye : y.entered = true) (n : Nat) :
    r.passSpent (n + 2) =
      { r with slots := (r.slots.set r.consumer none).set j none, consumer := j + 1 } := by
  subst hj
  have hspent : r.headSpent = true := by rw [headSpent_eq r x (isEmpty_two r h) hx, hxo, hxe]; rfl
  have hnext : r.advance.slots[r.advance.consumer] = some y :=
    (set_other r.slots r.consumer (r.consumer + 1) none (by simp)).trans hy
  have hrest := passSpent_one r.advance y h hnext hyo hye n
  simp only [Ring.passSpent, hspent, if_true] at hrest ⊢
  exact hrest

/-! ### An order that closes (R57) -/

/-- The order in a slot closes, its chain leaves the list with its last open member, and its record enters. -/
def Ring.spend (r : Ring) (slot : SlotNo) (outcome : CutOutcome) : Ring :=
  (r.upOrder slot fun x => { x with state := .closed outcome, remaining := 0, entered := false }).prune.upOrder slot
    fun x => { x with entered := true }

theorem upOrder_eq (r : Ring) (slot : SlotNo) (x : OrderRec) (f : OrderRec → OrderRec) (h : r.slots[slot] = some x) :
    r.upOrder slot f = { r with slots := r.slots.set slot (some (f x)) } := by
  have hslot : upd r.slots slot (fun o => o.map f) = r.slots.set slot (some (f x)) :=
    congrArg (r.slots.set slot ·) (congrArg (Option.map f) h)
  simp only [Ring.upOrder, hslot]

/-- What is left of a ring's chains is decided by the orders that stay open. -/
theorem spend_eq (r : Ring) (slot : SlotNo) (x : OrderRec) (outcome : CutOutcome) (rest : List OrderRec)
    (hx : r.slots[slot] = some x)
    (hrest : ({ r with slots := r.slots.set slot (some { x with state := .closed outcome, remaining := 0, entered := false })
      } : Ring).openOrders = rest) :
    r.spend slot outcome =
      { r with
        slots := r.slots.set slot (some (x.spent outcome))
        chains := r.chains.filter fun c => rest.any fun o => decide (o.chain = c.id) } := by
  rw [Ring.spend, upOrder_eq r slot x _ hx, prune_eq, hrest]
  rw [upOrder_eq _ slot { x with state := .closed outcome, remaining := 0, entered := false } _ (set_same r.slots slot _)]
  simp only [Vector.set_set]
  rfl

/-- The one order of a ring closes. -/
theorem spend_one (r : Ring) (x : OrderRec) (outcome : CutOutcome) (h : r.producer = r.consumer + 1)
    (hx : r.slots[r.consumer] = some x) : r.spend r.consumer outcome =
      { r with slots := r.slots.set r.consumer (some (x.spent outcome)), chains := [] } := by
  refine (spend_eq r r.consumer x outcome [] hx ?_).trans ?_
  · refine (openOrders_one _ (by exact h)).trans ?_
    exact congrArg (fun a : Option OrderRec => (a.filter OrderRec.isOpen).toList) (set_same r.slots r.consumer _)
  · simp only [List.any_nil, List.filter_false]

/-- The first of a ring's two orders closes; the second stays open. -/
theorem spend_first (r : Ring) (j : SlotNo) (x y : OrderRec) (outcome : CutOutcome) (hj : j = r.consumer + 1)
    (h : r.producer = j + 1) (hx : r.slots[r.consumer] = some x) (hy : r.slots[j] = some y) (ho : y.isOpen = true) :
    r.spend r.consumer outcome =
      { r with
        slots := r.slots.set r.consumer (some (x.spent outcome))
        chains := r.chains.filter fun c => decide (y.chain = c.id) } := by
  subst hj
  refine (spend_eq r r.consumer x outcome [y] hx ?_).trans ?_
  · have hslot : (r.slots.set r.consumer (some { x with
        state := .closed outcome, remaining := 0, entered := false }))[r.consumer + 1] = some y :=
      (set_other r.slots r.consumer (r.consumer + 1) _ (by simp)).trans hy
    refine (openOrders_two _ (by exact h)).trans ?_
    refine congrArg₂ (fun a b : Option OrderRec => (a.filter OrderRec.isOpen).toList ++ (b.filter OrderRec.isOpen).toList)
      (set_same r.slots r.consumer _) hslot |>.trans ?_
    rw [toList_open _ ho, toList_closed _ rfl, List.nil_append]
  · simp only [List.any_cons, List.any_nil, Bool.or_false]

/-- The second of a ring's two orders closes behind the first. -/
theorem spend_second (r : Ring) (j : SlotNo) (x y : OrderRec) (outcome : CutOutcome) (hj : j = r.consumer + 1)
    (h : r.producer = j + 1) (hx : r.slots[r.consumer] = some x) (hc : x.isOpen = false) (hy : r.slots[j] = some y) :
    r.spend j outcome = { r with slots := r.slots.set j (some (y.spent outcome)), chains := [] } := by
  subst hj
  refine (spend_eq r (r.consumer + 1) y outcome [] hy ?_).trans ?_
  · have hslot : (r.slots.set (r.consumer + 1 : SlotNo) (some { y with
        state := .closed outcome, remaining := 0, entered := false }))[r.consumer] = some x :=
      (set_other r.slots (r.consumer + 1) r.consumer _ (by simp)).trans hx
    refine (openOrders_two _ (by exact h)).trans ?_
    refine congrArg₂ (fun a b : Option OrderRec => (a.filter OrderRec.isOpen).toList ++ (b.filter OrderRec.isOpen).toList)
      hslot (set_same r.slots (r.consumer + 1) _) |>.trans ?_
    rw [toList_closed _ hc, toList_closed _ rfl, List.nil_append]
  · simp only [List.any_nil, List.filter_false]

end Sys2Proof.Machine
end

section
/-! PROOF. An order's arrival: it joins its ring and chain (R43, R44, R47), or is refused (R45, R46). -/

namespace Sys2Proof.Machine

/-! ### Chains -/

theorem openChain_none (r : Ring) (h : ∀ c, r.chains.getLast? = some c → c.state ≠ .opened) : r.openChain = none := by
  simp only [Ring.openChain]
  cases hc : r.chains.getLast? with
  | none => rfl
  | some c => simp [Option.filter_some, h c hc]

theorem openChain_last (r : Ring) (before : List Chain) (c : Chain) (hc : r.chains = before ++ [c]) : r.openChain =
    if c.state = .opened then some c else none := by
  simp only [Ring.openChain, hc, List.getLast?_append, List.getLast?_singleton, Option.some_or, Option.filter_some,
    decide_eq_true_eq]

theorem chainStateAfter_eq (flag : Bool) (pos : Nat) :
    chainStateAfter flag pos = if flag = true ∧ pos < 8 then .opened else .unclaimed := by
  simp only [chainStateAfter, Bool.and_eq_true, decide_eq_true_eq]

theorem mayClaim_barred (p : Part) (st : StationNo)
    (h : p.stc[st].state = .service ∨ p.stc[st].owner = .panel ∨ ∃ d ∈ p.oqu[st].chains, d.state = .waiting) :
    mayClaim p st = false := by
  rw [Bool.eq_false_iff]
  intro hm
  simp only [mayClaim, Bool.and_eq_true, decide_eq_true_eq, Option.isNone_iff_eq_none, Ring.waitingChain,
    List.find?_eq_none] at hm
  obtain ⟨⟨hs, ho⟩, hw⟩ := hm
  rcases h with h | h | ⟨d, hd, hdw⟩
  · exact hs h
  · rw [h] at ho
    cases ho
  · exact hw d hd hdw

theorem examineClaim_barred (st : StationNo) (e : Ev) (h : mayClaim e.p st = false) : examineClaim st e = e := by
  unfold examineClaim
  simp only [h, Bool.not_false, if_true]

/-! ### An order written to its slot (R44, R47) -/

/-- The record of an order at its arrival. -/
def arrived (o : Order) (slot : SlotNo) (chain pos : Nat) : OrderRec :=
  ⟨o, slot, .queued, chain, pos, none, 0, 0, none, false⟩

theorem writeOrder_new (o : Order) (r : Ring) (h : r.openChain = none) : writeOrder o r =
    { r with
      slots := r.slots.set r.producer (some (arrived o r.producer r.nextChain 1))
      producer := r.producer + 1
      chains := r.chains ++ [⟨r.nextChain, r.producer, 1, if o.chain then .opened else .unclaimed, 0⟩]
      nextChain := r.nextChain + 1 } := by
  have hstate : chainStateAfter o.chain 1 = if o.chain then .opened else .unclaimed := by
    rw [chainStateAfter_eq]
    cases o.chain <;> rfl
  simp only [writeOrder, h, hstate]
  rfl

theorem writeOrder_joins (o : Order) (r : Ring) (before : List Chain) (c : Chain) (hc : r.chains = before ++ [c])
    (ho : c.state = .opened) (hid : ∀ d ∈ before, d.id ≠ c.id) : writeOrder o r =
    { r with
      slots := r.slots.set r.producer (some (arrived o r.producer c.id (c.members + 1)))
      producer := r.producer + 1
      chains := before ++ [⟨c.id, c.first, c.members + 1,
        if o.chain = true ∧ c.members + 1 < 8 then .opened else .unclaimed, c.need⟩] } := by
  have hopen : r.openChain = some c := (openChain_last r before c hc).trans (if_pos ho)
  have hchains : (r.chains.map fun d => if d.id = c.id then
      { d with members := c.members + 1, state := chainStateAfter o.chain (c.members + 1) } else d) =
      before ++ [⟨c.id, c.first, c.members + 1,
        if o.chain = true ∧ c.members + 1 < 8 then .opened else .unclaimed, c.need⟩] := by
    rw [hc, List.map_append, List.map_singleton, if_pos rfl, chainStateAfter_eq]
    congr 1
    exact (List.map_congr_left fun d hd => if_neg (hid d hd)).trans (List.map_id _)
  simp only [writeOrder, hopen, hchains]
  rfl

/-- An order is taken (R43): it is written, and a chain that it leaves complete asks for its claim. -/
theorem takeOrder_taken (st : StationNo) (f : OrderFields) (o : Order) (p : Part) (r : Ring)
    (hfull : p.oqu[st].producer + 1 ≠ p.oqu[st].consumer) (ho : orderOf f = some o) (hr : writeOrder o p.oqu[st] = r) :
    takeOrder st f ⟨p, []⟩ =
      ⟨{ p with oqu := p.oqu.set st r }, if r.openChain.isSome = true then [] else [.claim st]⟩ := by
  have hnot : p.oqu[st].isFull = false := decide_eq_false hfull
  have hring : (p.upRing st (writeOrder o)).oqu[st] = r := (upd_same p.oqu st (writeOrder o)).trans hr
  have hpart : p.upRing st (writeOrder o) = { p with oqu := p.oqu.set st r } := by
    rw [← hr]
    rfl
  simp only [takeOrder, hnot, ho, Bool.false_eq_true, if_false, Ev.map, hring]
  rw [hpart]
  by_cases hopen : r.openChain.isSome = true
  · rw [if_pos hopen, if_pos hopen]
  · rw [if_neg hopen, if_neg hopen]
    rfl

/-- A CUT ORDER's event to its last examination. -/
theorem cutOrder_settles (dst src : Byte) (f : OrderFields) (st : StationNo) (s : State) (q : Part) (n : Nat)
    (h : Quiet s.part) (hd : dst.toNat ≤ 63) (hsrc : src.toNat ≤ 62) (hst : stationOf s.part dst = some st)
    (hn : n ≤ Config.eventFuel) (hm : q.mgu = s.part.mgu) (hU : q.portU.waiting = s.part.portU.waiting)
    (hD : q.portD.waiting = s.part.portD.waiting) (hs : Settles n (takeOrder st f ⟨s.part, []⟩) q) :
    exec (.cutOrder dst src f) s = .next (s.withPart q) :=
  fromCell_settles s q n h hn hm (hU.trans h.2.2.2.2.2.1) (hD.trans h.2.2.2.2.2.2) ⟨dst, src, 0x21, encodeOrder f⟩
    (fun st => takeOrder st f) st hd hsrc hst hs

/-- Settles O41. -/
theorem orderJoinsTheRing : Obligations.OrderJoinsTheRing := by
  rintro dst src f o st s r h hd hsrc hst rfl hfull ho
  have takes : ∀ r : Ring, writeOrder o s.part.oqu[st] = r →
      (r.openChain.isSome = false → s.part.stc[st].state = .service ∨ s.part.stc[st].owner = .panel
        ∨ ∃ d ∈ r.chains, d.state = .waiting) →
      exec (.cutOrder dst src f) s = .next (s.withPart { s.part with oqu := s.part.oqu.set st r }) := by
    intro r hr hbar
    refine cutOrder_settles dst src f st s _ 1 h hd hsrc hst (by decide) (by exact rfl) rfl rfl ?_
    rw [takeOrder_taken st f o s.part r hfull ho hr]
    by_cases hopen : r.openChain.isSome = true
    · rw [if_pos hopen]
      exact settles_at_once 1 _
    · rw [if_neg hopen]
      refine settles_none _ [.claim st] fun t ht rest => ?_
      obtain rfl := List.mem_singleton.mp ht
      refine examineClaim_barred st _ (mayClaim_barred _ st ?_)
      rw [show (s.part.oqu.set st r)[st] = r from set_same s.part.oqu st r]
      exact hbar (Bool.not_eq_true _ ▸ hopen)
  refine ⟨fun hno hwait => ?_, fun before c hc hopen hid hwait => ?_⟩
  · refine takes _ (writeOrder_new o _ (openChain_none _ hno)) fun hlast => ?_
    rw [openChain_last _ _ _ rfl] at hlast
    refine hwait.resolve_left (fun hchain => ?_) |>.imp_right (Or.imp_right fun ⟨d, hd, hdw⟩ => ?_)
    · simp only [hchain, if_true, Option.isSome_some, Bool.true_eq_false] at hlast
    · exact ⟨d, List.mem_append_left _ hd, hdw⟩
  · refine takes _ (writeOrder_joins o _ before c hc hopen hid) fun hlast => ?_
    rw [openChain_last _ _ _ rfl] at hlast
    refine hwait.resolve_left (fun hchain => ?_) |>.imp_right (Or.imp_right fun ⟨d, hd, hdw⟩ => ?_)
    · simp only [hchain, and_self, if_true, Option.isSome_some, Bool.true_eq_false] at hlast
    · exact ⟨d, List.mem_append_left _ hd, hdw⟩

end Sys2Proof.Machine
end

section
/-! PROOF. Orders that close in the ring (R57), what CPL's examination finds behind them (R41), and orders refused at
their arrival (R43, R45, R46). -/

namespace Sys2Proof.Machine

theorem upRing_eq_set (p : Part) (st : StationNo) (f : Ring → Ring) :
    p.upRing st f = { p with oqu := p.oqu.set st (f p.oqu[st]) } := rfl

/-- An order in the ring closes, its claim, if it has one, undone to `q`, and its record enters at once. -/
theorem closeInRing_room (st : StationNo) (slot : SlotNo) (outcome : CutOutcome) (lr : Bool) (p q : Part)
    (ts ts' : List Task) (o : OrderRec) (ho : p.oqu[st].slots[slot] = some o) (hopen : o.isOpen = true)
    (hundo : (if o.isClaimed then undoClaim st o lr ⟨p, ts⟩ else ⟨p, ts⟩) = ⟨q, ts'⟩)
    (hr : q.portU.queue.length < 16) :
    closeInRing st slot outcome lr ⟨p, ts⟩ =
      ⟨Part.sentU { q with oqu := q.oqu.set st (q.oqu[st].spend slot outcome) }
        [recordFrame (closedRecord st o outcome)],
        (ts' ++ [.station st]) ++ if o.state = .waiting then [.claim st] else []⟩ := by
  simp only [closeInRing, ho, hopen, Bool.not_true, Bool.false_eq_true, if_false]
  rw [hundo]
  have hoffer : offer (.spentSlot st slot (recordFrame (closedRecord st o outcome)))
      (Ev.map ⟨q, ts'⟩ fun p => p.upRing st fun r =>
        (r.upOrder slot fun x => { x with state := .closed outcome, remaining := 0, entered := false }).prune) =
      ⟨Part.sentU { q with oqu := q.oqu.set st (q.oqu[st].spend slot outcome) }
        [recordFrame (closedRecord st o outcome)], ts' ++ [.station st]⟩ := by
    rw [offer_U _ _ rfl (by exact hr)]
    simp only [enter, slotEntered, Ev.map, Ev.later, push_U, Part.sentU, upRing_eq_set, set_same, Vector.set_set]
    rfl
  rw [hoffer]
  by_cases hw : o.state = .waiting
  · rw [if_pos hw, if_pos hw]
    rfl
  · rw [if_neg hw, if_neg hw, List.append_nil]

/-- A QUEUED order closes. -/
theorem closeInRing_queued (st : StationNo) (slot : SlotNo) (outcome : CutOutcome) (lr : Bool) (p : Part)
    (ts : List Task) (o : OrderRec) (ho : p.oqu[st].slots[slot] = some o) (hs : o.state = .queued)
    (hr : p.portU.queue.length < 16) :
    closeInRing st slot outcome lr ⟨p, ts⟩ =
      ⟨Part.sentU { p with oqu := p.oqu.set st (p.oqu[st].spend slot outcome) }
        [recordFrame (closedRecord st o outcome)], ts ++ [.station st]⟩ := by
  have hclaimed : ¬o.isClaimed = true := by simp only [OrderRec.isClaimed, hs, Bool.false_eq_true, not_false_eq_true]
  have hw : ¬o.state = .waiting := by simp only [hs, reduceCtorEq, not_false_eq_true]
  refine (closeInRing_room st slot outcome lr p p ts ts o ho (isOpen_queued o hs) (if_neg hclaimed) hr).trans ?_
  rw [if_neg hw, List.append_nil]

/-- CPL passes the spent slots at the head of a ring, and finds nothing to move on-deck. -/
theorem examineStation_passes (st : StationNo) (p : Part) (ts : List Task) (r : Ring)
    (hr : p.oqu[st].passSpent 16 = r) (ha : r.headAdmitted = none) (hd : p.cpl[st].onDeck = none) :
    examineStation st ⟨p, ts⟩ = ⟨{ p with oqu := p.oqu.set st r }, ts⟩ := by
  have hpass : p.upRing st (fun q => q.passSpent 16) = { p with oqu := p.oqu.set st r } := by rw [upRing_eq_set, hr]
  have hhead : ({ p with oqu := p.oqu.set st r } : Part).oqu[st].headAdmitted = none :=
    (congrArg Ring.headAdmitted (set_same p.oqu st r)).trans ha
  have hmove : moveOnDeck st { p with oqu := p.oqu.set st r } = { p with oqu := p.oqu.set st r } := by
    simp only [moveOnDeck, hhead, ite_self]
  simp only [examineStation, Ev.map, hpass, hmove, hd]

/-- One examination by CPL, then the rest. -/
theorem settles_examined (n : Nat) (st : StationNo) (p q : Part) (e : Ev) (ts : List Task)
    (h : examineStation st ⟨p, ts⟩ = e) (hs : Settles n e q) : Settles (n + 1) ⟨p, .station st :: ts⟩ q :=
  settles_step n (.station st) p q ts ((congrArg (Settles n · q) h).mpr hs)

/-- One examination by OQU, then the rest. -/
theorem settles_claimed (n : Nat) (st : StationNo) (p q : Part) (e : Ev) (ts : List Task)
    (h : examineClaim st ⟨p, ts⟩ = e) (hs : Settles n e q) : Settles (n + 1) ⟨p, .claim st :: ts⟩ q :=
  settles_step n (.claim st) p q ts ((congrArg (Settles n · q) h).mpr hs)

theorem settles_eq (n : Nat) (p q : Part) (h : p = q) : Settles n ⟨p, []⟩ q :=
  h ▸ fun _ _ => settle_done _ _ rfl

/-! ### Arrival -/

theorem numFields_zero : num8 0 ++ num32 0 ++ num32 0 ++ num32 0 ++ num32 0 ++ num32 0 ++ num32 0 ++ num32 0 =
    List.replicate 29 0 := by decide

/-- The CUT RECORD SHORT of an order refused at its arrival (R45). -/
theorem arrivalRecord_bytes (st : StationNo) (f : OrderFields) (outcome : CutOutcome) :
    recordFrame (arrivalRecord st f outcome) = ⟨0, 1, 0x81, num8 st.val ++ [255] ++ put16 f.tag
      ++ [f.job, BitVec.ofNat 8 outcome.code] ++ put16 f.source ++ put16 f.len ++ put16 f.wid ++ List.replicate 29 0⟩ := by
  rw [← numFields_zero]
  rfl

/-- The CUT RECORD SHORT of an order without a ticket that OQU closes (R57). -/
theorem closedRecord_bytes (st : StationNo) (x : OrderRec) (outcome : CutOutcome) (h : x.ticket = none) :
    recordFrame (closedRecord st x outcome) = ⟨0, 1, 0x81, num8 st.val ++ num8 x.slot.val ++ num16 x.order.tag
      ++ num8 x.order.job.val ++ num8 outcome.code ++ num16 (sourceCode x.order.source)
      ++ num16 x.order.len ++ num16 x.order.wid ++ List.replicate 29 0⟩ := by
  rw [← numFields_zero]
  simp only [recordFrame, recordBytes, closedRecord, h]
  rfl

end Sys2Proof.Machine
end

section
/-! PROOF. A CUT ORDER's field ranges (R43), and orders refused at their arrival (R45, R46). -/

namespace Sys2Proof

theorem index_eq_some {n k : Nat} (i : Fin n) : index n k = some i ↔ i.val = k := by
  constructor
  · intro h
    by_cases hk : k < n
    · simp only [index, hk, dite_true, Option.some.injEq] at h
      rw [← h]
    · rw [index_none (Nat.le_of_not_lt hk)] at h
      cases h
  · exact index_of i

end Sys2Proof

namespace Sys2Proof.Machine

/-! ### The fields of an order -/

theorem flagOf_iff (b : Byte) (x : Bool) : flagOf b = some x ↔ b.toNat = if x then 1 else 0 := by
  refine ⟨fun h => ?_, flagOf_some b x⟩
  unfold flagOf at h
  split at h
  case h_1 hb => obtain rfl := Option.some.inj h; exact hb
  case h_2 hb => obtain rfl := Option.some.inj h; exact hb
  case h_3 => cases h

/-- The code a mode is received as. -/
def modeCode (m : Mode) : Nat :=
  match m with
  | .production => 0
  | .rework => 1

theorem modeOf_iff (b : Byte) (m : Mode) : modeOf b = some m ↔ b.toNat = modeCode m := by
  constructor
  · intro h
    unfold modeOf at h
    split at h
    case h_1 hb => obtain rfl := Option.some.inj h; exact hb
    case h_2 hb => obtain rfl := Option.some.inj h; exact hb
    case h_3 => cases h
  · intro h
    unfold modeOf
    cases m <;> simp only [modeCode] at h <;> simp only [h]

theorem sourceOf_iff (x : Half) (s : Source) : sourceOf x = some s ↔ x.toNat = sourceCode s := by
  by_cases h : x.toNat = 65535
  · cases s with
    | slab n =>
      have : n.val ≠ 65535 := by omega
      simp [sourceOf, sourceCode, h, this.symm]
    | followOn => simp [sourceOf, sourceCode, h]
  · cases s with
    | slab n =>
      simp only [sourceOf, if_neg h, Option.map_eq_some_iff, Source.slab.injEq, exists_eq_right, index_eq_some,
        sourceCode]
      exact eq_comm
    | followOn => simp [sourceOf, sourceCode, h]

theorem not_outside (lo hi x : Nat) : ¬outside lo hi x = true ↔ lo ≤ x ∧ x ≤ hi := by rw [outside_iff, not_not]

theorem orderOf_iff (f : OrderFields) (o : Order) : orderOf f = some o ↔
    (o.job.val = f.job.toNat ∧ f.source.toNat = sourceCode o.source ∧ f.mode.toNat = modeCode o.mode
        ∧ f.chain.toNat = (if o.chain then 1 else 0) ∧ f.summaryNow.toNat = if o.summaryNow then 1 else 0)
      ∧ (f.job.toNat ≠ 0 ∧ (50 ≤ f.len.toNat ∧ f.len.toNat ≤ 4000) ∧ 50 ≤ f.wid.toNat ∧ f.wid.toNat ≤ 2200)
      ∧ o.len = f.len.toNat ∧ o.wid = f.wid.toNat ∧ o.tag = f.tag.toNat := by
  simp only [orderOf, Option.bind_eq_bind, Option.bind_eq_some_iff, index_eq_some, sourceOf_iff, modeOf_iff, flagOf_iff]
  constructor
  · rintro ⟨job, hj, source, hs, mode, hm, chain, hc, now, hn, h⟩
    by_cases hr : (decide (job.val = 0) || outside 50 4000 f.len.toNat || outside 50 2200 f.wid.toNat) = true
    · rw [if_pos hr] at h
      cases h
    · rw [if_neg hr] at h
      rw [Bool.or_eq_true, Bool.or_eq_true, decide_eq_true_eq, not_or, not_or, not_outside, not_outside, hj] at hr
      obtain rfl := Option.some.inj h
      exact ⟨⟨hj, hs, hm, hc, hn⟩, ⟨hr.1.1, hr.1.2, hr.2⟩, rfl, rfl, rfl⟩
  · rintro ⟨⟨hj, hs, hm, hc, hn⟩, ⟨h0, hl, hw⟩, h1, h2, h3⟩
    refine ⟨o.job, hj, o.source, hs, o.mode, hm, o.chain, hc, o.summaryNow, hn, ?_⟩
    rw [if_neg, ← h1, ← h2, ← h3]
    rw [Bool.or_eq_true, Bool.or_eq_true, decide_eq_true_eq, not_or, not_or, not_outside, not_outside, hj]
    exact ⟨⟨h0, hl⟩, hw⟩

/-- An order's fields as R43 ranges them. -/
def FieldsInRange (f : OrderFields) : Prop :=
  (1 ≤ f.job.toNat ∧ f.job.toNat ≤ 63) ∧ (f.source.toNat ≤ 511 ∨ f.source.toNat = 65535)
    ∧ (50 ≤ f.len.toNat ∧ f.len.toNat ≤ 4000) ∧ (50 ≤ f.wid.toNat ∧ f.wid.toNat ≤ 2200)
    ∧ f.mode.toNat ≤ 1 ∧ f.chain.toNat ≤ 1 ∧ f.summaryNow.toNat ≤ 1

theorem sourceCode_range (s : Source) : sourceCode s ≤ 511 ∨ sourceCode s = 65535 := by
  cases s with
  | slab n => exact .inl (Nat.le_of_lt_succ n.isLt)
  | followOn => exact .inr rfl

theorem exists_sourceCode (n : Nat) (h : n ≤ 511 ∨ n = 65535) : ∃ s, n = sourceCode s := by
  rcases h with h | h
  · exact ⟨.slab ⟨n, by omega⟩, rfl⟩
  · exact ⟨.followOn, h⟩

theorem exists_flag (n : Nat) (h : n ≤ 1) : ∃ x : Bool, n = if x then 1 else 0 := by
  obtain rfl | rfl := Nat.le_one_iff_eq_zero_or_eq_one.mp h
  · exact ⟨false, rfl⟩
  · exact ⟨true, rfl⟩

theorem exists_modeCode (n : Nat) (h : n ≤ 1) : ∃ m, n = modeCode m := by
  obtain rfl | rfl := Nat.le_one_iff_eq_zero_or_eq_one.mp h
  · exact ⟨.production, rfl⟩
  · exact ⟨.rework, rfl⟩

theorem orderOf_exists (f : OrderFields) : (∃ o, orderOf f = some o) ↔ FieldsInRange f := by
  constructor
  · rintro ⟨o, ho⟩
    obtain ⟨⟨hj, hs, hm, hc, hn⟩, ⟨h0, hl, hw⟩, -⟩ := (orderOf_iff f o).mp ho
    have hmode : modeCode o.mode ≤ 1 := by cases o.mode <;> decide
    refine ⟨⟨by omega, by omega⟩, hs ▸ sourceCode_range _, hl, hw, hm ▸ hmode, ?_, ?_⟩
    · rw [hc]; split <;> decide
    · rw [hn]; split <;> decide
  · rintro ⟨⟨h1, h63⟩, hs, hl, hw, hm, hc, hn⟩
    obtain ⟨source, hs⟩ := exists_sourceCode _ hs
    obtain ⟨mode, hm⟩ := exists_modeCode _ hm
    obtain ⟨chain, hc⟩ := exists_flag _ hc
    obtain ⟨now, hn⟩ := exists_flag _ hn
    exact ⟨⟨⟨f.job.toNat, by omega⟩, source, f.len.toNat, f.wid.toNat, mode, chain, now, f.tag.toNat⟩,
      (orderOf_iff f _).mpr ⟨⟨rfl, hs, hm, hc, hn⟩, ⟨by omega, hl, hw⟩, rfl, rfl, rfl⟩⟩

theorem orderOf_none (f : OrderFields) : orderOf f = none ↔ ¬FieldsInRange f := by
  rw [← orderOf_exists, ← Option.isSome_iff_exists, Option.not_isSome_iff_eq_none]

/-! ### Refusals -/

/-- The record of a refused arrival enters, and the open chain, if there is one, is refused with it. -/
theorem refuseArrival_room (st : StationNo) (f : OrderFields) (outcome : CutOutcome) (p : Part) (hw : p.portU.waiting = [])
    (hr : p.portU.queue.length < 16) : refuseArrival st f outcome ⟨p, []⟩ =
      refuseOpenChain st ⟨p.sentU [recordFrame (arrivalRecord st f outcome)], []⟩ := by
  have hwaits : ¬Config.waitingPlaces ≤ (Ev.p ⟨p, []⟩).portU.waits Waiter.isArrivalRefusal := by
    simp only [PortState.waits, hw]
    decide
  simp only [refuseArrival, hwaits, if_false]
  rw [offer_U _ _ rfl hr]
  rfl

theorem refuseOpenChain_none (st : StationNo) (e : Ev) (h : e.p.oqu[st].openChain = none) : refuseOpenChain st e = e := by
  simp only [refuseOpenChain, h]

theorem takeOrder_full (st : StationNo) (f : OrderFields) (e : Ev) (h : e.p.oqu[st].producer + 1 = e.p.oqu[st].consumer) :
    takeOrder st f e = refuseArrival st f .queueFull e := if_pos (decide_eq_true h)

theorem takeOrder_bad (st : StationNo) (f : OrderFields) (e : Ev) (h : e.p.oqu[st].producer + 1 ≠ e.p.oqu[st].consumer)
    (ho : orderOf f = none) : takeOrder st f e = refuseArrival st f .badOrder e := by
  have hnot : e.p.oqu[st].isFull = false := decide_eq_false h
  simp only [takeOrder, hnot, ho, Bool.false_eq_true, if_false]

theorem fromCell_unmapped (f : Frame) (act : StationNo → Ev → Ev) (s : State) (h : Quiet s.part)
    (hd : f.dst.toNat ≤ 63) (hs : f.src.toNat ≤ 62) (hst : stationOf s.part f.dst = none)
    (hr : s.part.portD.queue.length < 12) : live s (fromCell f act) = .next (s.withPart (s.part.sentD [f])) := by
  have hfrom : fromCell f act s.part = event (forward .U f) s.part := by
    simp only [fromCell, nodesOk_legal _ _ hd hs, handAll_none .U _ h.2.2.2.1, hst, Bool.not_true, Bool.false_eq_true,
      if_false]
  refine (live_released s _ h.1).trans ((congrArg (fun p => Host.Outcome.next (s.withPart p)) hfrom).trans ?_)
  refine (live_released s _ h.1).symm.trans (live_quiet s (forward .U f) _ h ?_ rfl rfl rfl)
  exact forward_U f ⟨s.part, []⟩ hr

/-- The one order of a ring, closed and its record entered, is passed by CPL. -/
theorem examineStation_spent (st : StationNo) (p : Part) (ts : List Task) (r : Ring) (x : OrderRec) (outcome : CutOutcome)
    (chains : List Chain) (h : r.producer = r.consumer + 1)
    (hr : p.oqu[st] = { r with slots := r.slots.set r.consumer (some (x.spent outcome)), chains := chains })
    (hd : p.cpl[st].onDeck = none) :
    examineStation st ⟨p, ts⟩ =
      ⟨{ p with
        oqu := p.oqu.set st
          { r with slots := r.slots.set r.consumer none, consumer := r.consumer + 1, chains := chains } }, ts⟩ := by
  refine examineStation_passes st p ts _ ?_ (headAdmitted_empty _ h) hd
  have hpass := passSpent_one { r with slots := r.slots.set r.consumer (some (x.spent outcome)), chains := chains }
    (x.spent outcome) h (set_same r.slots r.consumer _) rfl rfl 15
  rw [hr, hpass]
  simp only [Vector.set_set]

/-- R46: an open chain of one order is refused: the order closes CHAIN_REFUSED, and the refusal is notified. -/
theorem refuseOpenChain_one (st : StationNo) (p : Part) (r : Ring) (x : OrderRec) (hr : p.oqu[st] = r)
    (hone : r.producer = r.consumer + 1) (hx : r.slots[r.consumer] = some x) (hslot : x.slot = r.consumer)
    (hq : x.state = .queued) (hchains : r.chains = [⟨x.chain, x.slot, 1, .opened, 0⟩]) (hout : p.ntu.outstanding = true)
    (hroom : p.portU.queue.length < 16) : refuseOpenChain st ⟨p, []⟩ =
      ⟨Part.sentU
        { p with
          oqu := p.oqu.set st { r with slots := r.slots.set r.consumer (some (x.spent .chainRefused)), chains := [] }
          ntu := joinNotice p.ntu .chainRefused (some st) (.slot x.slot) }
        [recordFrame (closedRecord st x .chainRefused)], [.station st]⟩ := by
  have hopen : p.oqu[st].openChain = some ⟨x.chain, x.slot, 1, .opened, 0⟩ := by
    rw [hr]
    exact (openChain_last r [] _ hchains).trans (if_pos rfl)
  have hmembers : p.oqu[st].members x.chain = [x] := by
    rw [hr, Ring.members, openOrders_single r x hone hx (isOpen_queued x hq)]
    simp only [List.filter_cons, decide_true, if_true, List.filter_nil]
  have hclose := closeInRing_queued st x.slot .chainRefused false p [] x (by rw [hr, hslot]; exact hx) hq hroom
  rw [hr, hslot, spend_one r x .chainRefused hone hx] at hclose
  simp only [refuseOpenChain, hopen, hmembers, List.map_cons, List.map_nil, closeAll, List.foldl, hslot]
  rw [hclose, raise_outstanding _ _ _ _ (by exact hout)]
  rfl

/-- Settles O42. -/
theorem ordersOutOfRangeAreRefused : Obligations.OrdersOutOfRangeAreRefused := by
  refine ⟨fun f => ⟨?_, fun o ho => ?_⟩, fun dst src f s h hd hsrc => ⟨fun hst hr => ?_, fun st record hst hrec =>
    ⟨fun hr hno => ?_, ?_⟩⟩⟩
  · exact orderOf_none f
  · obtain ⟨⟨hj, hs, hm, hc, hn⟩, -, hl, hw, ht⟩ := (orderOf_iff f o).mp ho
    refine ⟨hj, hl, hw, ht, ?_, ?_, hc, hn⟩
    · cases hsrc : o.source <;> rw [hsrc] at hs
      · exact hs.symm
      · exact hs
    · cases hmode : o.mode <;> rw [hmode] at hm <;> exact hm
  · exact fromCell_unmapped ⟨dst, src, 0x21, encodeOrder f⟩ (fun st => takeOrder st f) s h hd hsrc hst hr
  · have refuses : ∀ outcome, takeOrder st f ⟨s.part, []⟩ = refuseArrival st f outcome ⟨s.part, []⟩ →
        exec (.cutOrder dst src f) s = .next (s.withPart (s.part.sentU [record (BitVec.ofNat 8 outcome.code)])) := by
      intro outcome htake
      refine cutOrder_settles dst src f st s _ 0 h hd hsrc hst (by decide) rfl rfl rfl ?_
      rw [htake, refuseArrival_room st f outcome s.part h.2.2.2.2.2.1 hr, refuseOpenChain_none st _ (openChain_none _ hno),
        arrivalRecord_bytes, ← hrec]
      exact settles_done _
    exact ⟨fun hfull => refuses .queueFull (takeOrder_full st f _ hfull),
      fun hfull ho => refuses .badOrder (takeOrder_bad st f _ hfull ho)⟩
  · rintro r x hr rfl hone hx hslot hq ht hchains hdeck hout ho
    have hnot : s.part.oqu[st].producer + 1 ≠ s.part.oqu[st].consumer := by
      rw [hone, add_assoc]
      simp
    have hrefuse := refuseOpenChain_one st (s.part.sentU [recordFrame (arrivalRecord st f .badOrder)]) _ x rfl hone hx hslot
      hq hchains hout (by
        simp only [Part.sentU, List.length_append, List.length_singleton]
        exact hr)
    refine cutOrder_settles dst src f st s _ 1 h hd hsrc hst (by decide) rfl rfl rfl ?_
    rw [takeOrder_bad st f _ hnot ho, refuseArrival_room st f _ s.part h.2.2.2.2.2.1 (by omega), hrefuse]
    refine settles_examined 0 st _ _ _ [] (examineStation_spent st _ [] s.part.oqu[st] x .chainRefused [] hone
      (by exact set_same _ _ _) hdeck) (settles_eq 0 _ _ ?_)
    rw [arrivalRecord_bytes, closedRecord_bytes st x _ ht, hrec]
    simp only [Part.sentU, List.append_assoc, List.singleton_append, Vector.set_set]
    rfl

end Sys2Proof.Machine
end

section
/-! PROOF. The claim's checks of a member, in order, and the refusal of a chain that fails one (R49 to R53). -/

namespace Sys2Proof.Machine

/-! ### The checks of one member (R50, R52) -/

theorem checkMember_job (p : Part) (st : StationNo) (g : Progress) (o : OrderRec)
    (h : p.jau.jobs[o.order.job].state ≠ .opened) : checkMember p st g o = .error .jobNotOpen := if_pos h

section Member
variable (p : Part) (st : StationNo) (g : Progress) (o : OrderRec) (h : p.jau.jobs[o.order.job].state = .opened)
include h

theorem checkMember_source (out : CutOutcome) (hs : memberStone p g o.order = .error out) :
    checkMember p st g o = .error out := by
  simp only [checkMember, h, ne_eq, not_true_eq_false, if_false, hs]

theorem checkMember_piece (s : Stone) (hs : memberStone p g o.order = .ok s)
    (ht : ticketOf p.classes[p.map[st].cls] o.order.source s o.order.len o.order.wid = none) :
    checkMember p st g o = .error .pieceTooLarge := by
  simp only [checkMember, h, ne_eq, not_true_eq_false, if_false, hs, ht]

theorem checkMember_ticket (s : Stone) (t : Ticket) (hs : memberStone p g o.order = .ok s)
    (ht : ticketOf p.classes[p.map[st].cls] o.order.source s o.order.len o.order.wid = some t) :
    checkMember p st g o =
      if 512 < usedCount p.stk + p.stk.reservations + (g.records + t.planned) then .error .recordsFull
      else if p.wbu.consts.capacity - p.wbu.consts.lowMark < g.water + t.water then .error .waterTooLarge
      else .ok ⟨g.tickets ++ [(o.slot, t)], some t, g.named ++ namedSlab o.order, g.records + t.planned,
        g.water + t.water⟩ := by
  simp only [checkMember, h, ne_eq, not_true_eq_false, if_false, hs, ht]
  rfl

end Member

theorem memberStone_slab (p : Part) (g : Progress) (o : Order) (n : SlabNo) (h : o.source = .slab n) (r : Slab)
    (hr : p.stk.slabs[n] = some r) : memberStone p g o =
      if r.state ≠ .stock then .error .slabBusy
      else if cuttable p.lck n.val = false then .error .slabLocked
      else if n ∈ g.named then .error .slabTwice
      else .ok r.stone := by
  simp only [memberStone, h, hr, Bool.not_eq_true']

theorem memberStone_absent (p : Part) (g : Progress) (o : Order) (n : SlabNo) (h : o.source = .slab n)
    (hr : p.stk.slabs[n] = none) : memberStone p g o = .error .slabAbsent := by
  simp only [memberStone, h, hr]

theorem memberStone_noSource (p : Part) (g : Progress) (o : Order) (h : o.source = .followOn)
    (hl : g.last.bind Ticket.planA = none) : memberStone p g o = .error .noSource := by
  simp only [memberStone, h, hl]

theorem memberStone_follows (p : Part) (g : Progress) (o : Order) (s : Stone) (h : o.source = .followOn)
    (hl : g.last.bind Ticket.planA = some s) : memberStone p g o = .ok s := by
  simp only [memberStone, h, hl]

/-- R50, R52: a member is checked in the order of R50's table. -/
theorem checkMember_inOrder (p : Part) (st : StationNo) (g : Progress) (o : OrderRec) :
    (p.jau.jobs[o.order.job].state ≠ .opened → checkMember p st g o = .error .jobNotOpen)
    ∧ (p.jau.jobs[o.order.job].state = .opened →
      (∀ n : SlabNo, o.order.source = .slab n →
        (p.stk.slabs[n] = none → checkMember p st g o = .error .slabAbsent)
        ∧ ∀ r : Slab, p.stk.slabs[n] = some r →
          (r.state ≠ .stock → checkMember p st g o = .error .slabBusy)
          ∧ (r.state = .stock → cuttable p.lck n.val = false → checkMember p st g o = .error .slabLocked)
          ∧ (r.state = .stock → cuttable p.lck n.val = true → n ∈ g.named → checkMember p st g o = .error .slabTwice)
          ∧ (r.state = .stock → cuttable p.lck n.val = true → n ∉ g.named → memberStone p g o.order = .ok r.stone))
      ∧ (o.order.source = .followOn →
        (g.last = none → checkMember p st g o = .error .noSource)
        ∧ (∀ t, g.last = some t → (t.remA = none ∨ ∃ a, t.remA = some a ∧ a.kept = false) →
            checkMember p st g o = .error .noSource)
        ∧ (∀ t a, g.last = some t → t.remA = some a → a.kept = true → memberStone p g o.order =
            .ok ⟨max a.len a.wid, min a.len a.wid, t.thick, t.material, t.gen + 1⟩))
      ∧ (∀ stone : Stone, memberStone p g o.order = .ok stone →
        (ticketOf p.classes[p.map[st].cls] o.order.source stone o.order.len o.order.wid = none →
          checkMember p st g o = .error .pieceTooLarge)
        ∧ ∀ t : Ticket, ticketOf p.classes[p.map[st].cls] o.order.source stone o.order.len o.order.wid = some t →
          (512 < usedCount p.stk + p.stk.reservations + (g.records + t.planned) →
            checkMember p st g o = .error .recordsFull)
          ∧ (usedCount p.stk + p.stk.reservations + (g.records + t.planned) ≤ 512 →
              p.wbu.consts.capacity - p.wbu.consts.lowMark < g.water + t.water →
            checkMember p st g o = .error .waterTooLarge)
          ∧ (usedCount p.stk + p.stk.reservations + (g.records + t.planned) ≤ 512 →
              g.water + t.water ≤ p.wbu.consts.capacity - p.wbu.consts.lowMark →
            checkMember p st g o = .ok ⟨g.tickets ++ [(o.slot, t)], some t, g.named ++ namedSlab o.order,
              g.records + t.planned, g.water + t.water⟩))) := by
  refine ⟨checkMember_job p st g o, fun h => ⟨fun n hn => ⟨fun hr => ?_, fun r hr => ⟨fun hs => ?_, fun hs hc => ?_,
    fun hs hc hm => ?_, fun hs hc hm => ?_⟩⟩, fun hf => ⟨fun hl => ?_, fun t hl ha => ?_, fun t a hl ha hk => ?_⟩,
    fun stone hs => ⟨fun ht => checkMember_piece p st g o h stone hs ht, fun t ht => ⟨fun hr => ?_, fun hr hw => ?_,
    fun hr hw => ?_⟩⟩⟩⟩
  · exact checkMember_source p st g o h _ (memberStone_absent p g o.order n hn hr)
  · exact checkMember_source p st g o h _ ((memberStone_slab p g o.order n hn r hr).trans (if_pos hs))
  · refine checkMember_source p st g o h _ ((memberStone_slab p g o.order n hn r hr).trans ?_)
    rw [if_neg (not_not.mpr hs), if_pos hc]
  · refine checkMember_source p st g o h _ ((memberStone_slab p g o.order n hn r hr).trans ?_)
    rw [if_neg (not_not.mpr hs), if_neg (by rw [hc]; decide), if_pos hm]
  · rw [memberStone_slab p g o.order n hn r hr, if_neg (not_not.mpr hs), if_neg (by rw [hc]; decide), if_neg hm]
  · exact checkMember_source p st g o h _ (memberStone_noSource p g o.order hf (by rw [hl]; rfl))
  · refine checkMember_source p st g o h _ (memberStone_noSource p g o.order hf ?_)
    rw [hl]
    rcases ha with ha | ⟨a, ha, hk⟩
    · simp [Ticket.planA, ha]
    · simp [Ticket.planA, ha, hk]
  · refine memberStone_follows p g o.order _ hf ?_
    rw [hl]
    simp [Ticket.planA, ha, hk, Remnant.longer, Remnant.shorter]
  · rw [checkMember_ticket p st g o h stone t hs ht, if_pos hr]
  · rw [checkMember_ticket p st g o h stone t hs ht, if_neg (Nat.not_lt.mpr hr), if_pos hw]
  · rw [checkMember_ticket p st g o h stone t hs ht, if_neg (Nat.not_lt.mpr hr), if_neg (Nat.not_lt.mpr hw)]

/-! ### A chain that is refused (R53) -/

theorem mayClaim_open (p : Part) (st : StationNo) (hs : p.stc[st].state ≠ .service) (ho : p.stc[st].owner = .cell)
    (hw : ∀ d ∈ p.oqu[st].chains, d.state ≠ .waiting) : mayClaim p st = true := by
  have hnone : p.oqu[st].waitingChain = none := by
    simp only [Ring.waitingChain, List.find?_eq_none, decide_eq_true_eq]
    exact hw
  simp only [mayClaim, hs, ho, hnone, ne_eq, not_false_eq_true, decide_true, Option.isNone_none, Bool.and_self]

theorem examineClaim_refused (st : StationNo) (p : Part) (ts : List Task) (c : Chain) (ms : List OrderRec) (slot : SlotNo)
    (outcome : CutOutcome) (hm : mayClaim p st = true) (hc : p.oqu[st].unclaimedChain = some c)
    (hms : p.oqu[st].members c.id = ms) (he : checkChain p st .start ms = .error (slot, outcome)) :
    examineClaim st ⟨p, ts⟩ =
      (raise .chainRefused (some st) (.slot slot) (closeAll st (refusals ms slot outcome) false ⟨p, ts⟩)).later
        (.claim st) := by
  simp only [examineClaim, hm, hc, hms, he, Bool.not_true, Bool.false_eq_true, if_false]

theorem members_eq (r : Ring) (id : Nat) (ms : List OrderRec) (ho : r.openOrders = ms) (h : ∀ o ∈ ms, o.chain = id) :
    r.members id = ms := by
  rw [Ring.members, ho, List.filter_eq_self]
  exact fun o hm => decide_eq_true (h o hm)

theorem unclaimedChain_one (r : Ring) (c : Chain) (h : r.chains = [c]) (hc : c.state = .unclaimed) :
    r.unclaimedChain = some c := by
  rw [Ring.unclaimedChain, h]
  simp only [List.find?_cons, hc, decide_true]

theorem unclaimedChain_none (r : Ring) (h : r.chains = []) : r.unclaimedChain = none := by
  rw [Ring.unclaimedChain, h]
  rfl

/-- The CUT RECORD SHORT of an order without a ticket, in a statement's own words. -/
theorem record_eq (st : StationNo) (record : OrderRec → CutOutcome → Frame)
    (h : ∀ x outcome, record x outcome = ⟨0, 1, 0x81, num8 st.val ++ num8 x.slot.val ++ num16 x.order.tag
      ++ num8 x.order.job.val ++ num8 outcome.code ++ num16 (sourceCode x.order.source)
      ++ num16 x.order.len ++ num16 x.order.wid ++ List.replicate 29 0⟩) (x : OrderRec) (outcome : CutOutcome)
    (ht : x.ticket = none) : recordFrame (closedRecord st x outcome) = record x outcome :=
  (closedRecord_bytes st x outcome ht).trans (h x outcome).symm

/-- R53, R57: a chain of one order, alone in its ring, is refused: the examinations that follow leave the ring empty. -/
theorem refused_alone (st : StationNo) (p : Part) (r : Ring) (y : OrderRec) (c : Chain) (out : CutOutcome)
    (hp : p.oqu[st] = r) (hs : p.stc[st].state ≠ .service) (ho : p.stc[st].owner = .cell) (hd : p.cpl[st].onDeck = none)
    (hout : p.ntu.outstanding = true) (hroom : p.portU.queue.length < 16) (hone : r.producer = r.consumer + 1)
    (hy : r.slots[r.consumer] = some y) (hslot : y.slot = r.consumer) (hq : y.state = .queued) (hc : r.chains = [c])
    (hid : y.chain = c.id) (hcs : c.state = .unclaimed) (he : checkMember p st .start y = .error out) :
    Settles 3 ⟨p, [.claim st]⟩ (Part.sentU
      { p with
        oqu := p.oqu.set st { r with slots := r.slots.set r.consumer none, consumer := r.consumer + 1, chains := [] }
        ntu := joinNotice p.ntu .chainRefused (some st) (.slot y.slot) }
      [recordFrame (closedRecord st y out)]) := by
  subst hp
  have hmay := mayClaim_open p st hs ho (by rw [hc]; simp [hcs])
  have hms := members_eq p.oqu[st] c.id [y] (openOrders_single _ y hone hy (isOpen_queued y hq)) (by simp [hid])
  have hchain : checkChain p st .start [y] = .error (y.slot, out) := by simp only [checkChain, he]
  have hclose := closeInRing_queued st y.slot out false p [] y (by rw [hslot]; exact hy) hq hroom
  rw [hslot, spend_one _ y out hone hy] at hclose
  have hrefuse := examineClaim_refused st p [] c [y] y.slot out hmay (unclaimedChain_one _ c hc hcs) hms hchain
  have hall : closeAll st (refusals [y] y.slot out) false ⟨p, []⟩ =
      closeInRing st p.oqu[st].consumer out false ⟨p, []⟩ := by
    rw [← hslot]
    simp only [closeAll, refusals, List.map_cons, List.map_nil, List.foldl, if_true]
  rw [hall, hclose, raise_outstanding _ _ _ _ (by exact hout)] at hrefuse
  refine settles_claimed 2 st p _ _ [] hrefuse ?_
  refine settles_examined 1 st _ _ _ [.claim st] (examineStation_spent st _ [.claim st] p.oqu[st] y out [] hone
    (by exact set_same _ _ _) hd) ?_
  refine settles_claimed 0 st _ _ _ [] (examineClaim_none st _ ?_) (settles_eq 0 _ _ ?_)
  · exact unclaimedChain_none _ (congrArg Ring.chains (set_same _ _ _))
  · simp only [Part.sentU, Ev.map, Vector.set_set]

theorem set_swap {α : Type} {n : Nat} (v : Vector α n) (i j : Fin n) (a b : α) (h : i ≠ j) :
    (v.set i a).set j b = (v.set j b).set i a := Vector.set_comm _ _ fun e => h (Fin.ext e)

/-- Two places written twice hold what was written last. -/
theorem set_pair {α : Type} {n : Nat} (v : Vector α n) (i j : Fin n) (a b c d : α) (h : i ≠ j) :
    (((v.set i a).set j b).set i c).set j d = (v.set i c).set j d := by
  rw [set_swap (v.set i a) j i b c h.symm, Vector.set_set, Vector.set_set]

/-- Both orders of a ring, closed with their records entered, are passed by CPL. -/
theorem examineStation_spentPair (st : StationNo) (p : Part) (ts : List Task) (r : Ring) (j : SlotNo) (x y : OrderRec)
    (ofX ofY : CutOutcome) (chains : List Chain) (hj : j = r.consumer + 1) (h : r.producer = j + 1)
    (hr : p.oqu[st] =
      { r with
        slots := (r.slots.set r.consumer (some (x.spent ofX))).set j (some (y.spent ofY))
        chains := chains })
    (hd : p.cpl[st].onDeck = none) :
    examineStation st ⟨p, ts⟩ =
      ⟨{ p with
        oqu := p.oqu.set st
          { r with slots := (r.slots.set r.consumer none).set j none, consumer := j + 1, chains := chains } }, ts⟩ := by
  have hne : r.consumer ≠ j := by rw [hj]; simp
  refine examineStation_passes st p ts _ ?_ (headAdmitted_empty _ h) hd
  have hpass := passSpent_two
    { r with slots := (r.slots.set r.consumer (some (x.spent ofX))).set j (some (y.spent ofY)), chains := chains } j
    (x.spent ofX) (y.spent ofY) hj h ((set_other _ j r.consumer _ hne).trans (set_same r.slots r.consumer _)) rfl rfl
    (set_same _ j _) rfl rfl 14
  rw [hr, hpass]
  exact congrArg (fun v => Ring.mk v r.producer (j + 1) chains r.nextChain) (set_pair r.slots r.consumer j _ _ _ _ hne)

/-- R53, R57: a chain of two orders, alone in its ring, is refused: the records enter in ring order, and the
examinations that follow leave the ring empty. -/
theorem refused_pair (st : StationNo) (p : Part) (r : Ring) (j : SlotNo) (x y : OrderRec) (c : Chain)
    (out ofX ofY : CutOutcome) (failing : SlotNo)
    (hp : p.oqu[st] = r) (hs : p.stc[st].state ≠ .service) (ho : p.stc[st].owner = .cell) (hd : p.cpl[st].onDeck = none)
    (hout : p.ntu.outstanding = true) (hroom : p.portU.queue.length + 2 ≤ 16) (hj : j = r.consumer + 1)
    (h : r.producer = j + 1) (hx : r.slots[r.consumer] = some x) (hy : r.slots[j] = some y)
    (hxs : x.slot = r.consumer) (hys : y.slot = j) (hxq : x.state = .queued) (hyq : y.state = .queued) (hc : r.chains = [c])
    (hxid : x.chain = c.id) (hyid : y.chain = c.id) (hcs : c.state = .unclaimed)
    (he : checkChain p st .start [x, y] = .error (failing, out))
    (hof : refusals [x, y] failing out = [(x.slot, ofX), (y.slot, ofY)]) :
    Settles 4 ⟨p, [.claim st]⟩ (Part.sentU
      { p with
        oqu := p.oqu.set st
          { r with slots := (r.slots.set r.consumer none).set j none, consumer := j + 1, chains := [] }
        ntu := joinNotice p.ntu .chainRefused (some st) (.slot failing) }
      [recordFrame (closedRecord st x ofX), recordFrame (closedRecord st y ofY)]) := by
  have hne : j ≠ r.consumer := by rw [hj]; simp
  have hyo := isOpen_queued y hyq
  have hopen : r.openOrders = [x, y] := by
    subst hj
    rw [openOrders_two r h, hx, toList_open x (isOpen_queued x hxq)]
    exact congrArg (List.append [x]) ((congrArg (fun a : Option OrderRec => (a.filter OrderRec.isOpen).toList) hy).trans
      (toList_open y hyo))
  have hms := members_eq r c.id [x, y] hopen (by simp [hxid, hyid])
  have hmay := mayClaim_open p st hs ho (by rw [hp, hc]; simp [hcs])
  have hrefuse := examineClaim_refused st p [] c [x, y] failing out hmay (by rw [hp]; exact unclaimedChain_one r c hc hcs)
    (by rw [hp]; exact hms) he
  let r1 : Ring := { r with slots := r.slots.set r.consumer (some (x.spent ofX)), chains := [c] }
  have hfirst : r.spend r.consumer ofX = r1 := by
    rw [spend_first r j x y ofX hj h hx hy hyo, hc]
    simp only [List.filter_cons, hyid, decide_true, if_true, List.filter_nil, r1]
  have hr1y : r1.slots[j] = some y := (set_other r.slots r.consumer j _ hne).trans hy
  have hsecond := spend_second r1 j (x.spent ofX) y ofY hj h (set_same r.slots r.consumer _) rfl hr1y
  let p1 : Part := Part.sentU { p with oqu := p.oqu.set st r1 } [recordFrame (closedRecord st x ofX)]
  have hclose1 : closeInRing st x.slot ofX false ⟨p, []⟩ = ⟨p1, [.station st]⟩ := by
    have := closeInRing_queued st x.slot ofX false p [] x (by rw [hp, hxs]; exact hx) hxq (by omega)
    rw [hp, hxs, hfirst] at this
    rw [hxs, this]
    rfl
  have hp1 : p1.oqu[st] = r1 := set_same p.oqu st r1
  have hclose2 : closeInRing st y.slot ofY false ⟨p1, [.station st]⟩ =
      ⟨Part.sentU { p1 with
        oqu := p1.oqu.set st { r1 with slots := r1.slots.set j (some (y.spent ofY)), chains := [] } }
        [recordFrame (closedRecord st y ofY)], [.station st, .station st]⟩ := by
    have := closeInRing_queued st y.slot ofY false p1 [.station st] y (by rw [hp1, hys]; exact hr1y) hyq (by
      simp only [p1, Part.sentU, List.length_append, List.length_singleton]
      omega)
    rw [hp1, hys, hsecond] at this
    rw [hys, this]
    rfl
  have hall : closeAll st (refusals [x, y] failing out) false ⟨p, []⟩ =
      closeInRing st y.slot ofY false (closeInRing st x.slot ofX false ⟨p, []⟩) := by
    rw [hof]
    rfl
  rw [hall, hclose1, hclose2, raise_outstanding _ _ _ _ (by exact hout)] at hrefuse
  refine settles_claimed 3 st p _ _ [] hrefuse ?_
  refine settles_examined 2 st _ _ _ [.station st, .claim st] (examineStation_spentPair st _ [.station st, .claim st] r j
    x y ofX ofY [] hj h (by exact set_same _ _ _) hd) ?_
  refine settles_examined 1 st _ _ _ [.claim st] (examineStation_passes st _ [.claim st] _ (passSpent_none 16 _ ?_)
    ?_ hd) ?_
  · exact (congrArg Ring.headSpent (set_same _ _ _)).trans (headSpent_empty _ h)
  · exact (congrArg Ring.headAdmitted (set_same _ _ _)).trans (headAdmitted_empty _ h)
  · refine settles_claimed 0 st _ _ _ [] (examineClaim_none st _ ?_) (settles_eq 0 _ _ ?_)
    · exact unclaimedChain_none _ (congrArg Ring.chains ((set_same _ _ _).trans (set_same _ _ _)))
    · simp only [Part.sentU, Ev.map, set_same, Vector.set_set, p1, r1, List.append_assoc, List.singleton_append]

/-- A chain of its own: the order is written and its claim asked for. -/
theorem takeOrder_alone (st : StationNo) (f : OrderFields) (o : Order) (p : Part) (r : Ring) (hr : p.oqu[st] = r)
    (hfull : r.producer + 1 ≠ r.consumer) (ho : orderOf f = some o) (hc : o.chain = false) (hnone : r.openChain = none) :
    takeOrder st f ⟨p, []⟩ = ⟨{ p with
      oqu := p.oqu.set st
        { r with
          slots := r.slots.set r.producer (some (arrived o r.producer r.nextChain 1))
          producer := r.producer + 1
          chains := r.chains ++ [⟨r.nextChain, r.producer, 1, .unclaimed, 0⟩]
          nextChain := r.nextChain + 1 } }, [.claim st]⟩ := by
  subst hr
  have hwrite := writeOrder_new o _ hnone
  simp only [hc, Bool.false_eq_true, if_false] at hwrite
  rw [takeOrder_taken st f o p _ hfull ho hwrite, openChain_last _ _ _ rfl]
  rfl

/-- The order that completes an open chain of one order. -/
theorem takeOrder_completes (st : StationNo) (f : OrderFields) (o : Order) (p : Part) (r : Ring) (c : Chain)
    (hr : p.oqu[st] = r) (hfull : r.producer + 1 ≠ r.consumer) (ho : orderOf f = some o) (hc : o.chain = false)
    (hchains : r.chains = [c]) (hcs : c.state = .opened) :
    takeOrder st f ⟨p, []⟩ = ⟨{ p with
      oqu := p.oqu.set st
        { r with
          slots := r.slots.set r.producer (some (arrived o r.producer c.id (c.members + 1)))
          producer := r.producer + 1
          chains := [⟨c.id, c.first, c.members + 1, .unclaimed, c.need⟩] } }, [.claim st]⟩ := by
  subst hr
  have hwrite := writeOrder_joins o _ [] c hchains hcs (by simp)
  simp only [hc, Bool.false_eq_true, false_and, if_false, List.nil_append] at hwrite
  rw [takeOrder_taken st f o p _ hfull ho hwrite, openChain_last _ [] _ rfl]
  rfl

/-- Settles O43. -/
theorem claimChecksFailInOrder : Obligations.ClaimChecksFailInOrder := by
  refine ⟨fun p st g o => checkMember_inOrder p st g o, ?_⟩
  rintro dst src f o st s r record h hd hsrc hst ho hchain hr hstate howner hdeck hout hrecord
  have hrec := fun x outcome => record_eq st record hrecord x outcome
  refine ⟨fun y out hempty hnone hroom hy he => ?_,
    fun x y g out ofX ofY failing hone hx hxs hxq hxt hchains hroom hy he => ?_⟩
  · obtain ⟨slots, producer, consumer, chains, next⟩ := r
    obtain rfl : producer = consumer := hempty
    obtain rfl : chains = [] := hnone
    let r1 : Ring := ⟨slots.set producer (some y), producer + 1, producer, [⟨next, producer, 1, .unclaimed, 0⟩], next + 1⟩
    have htake := takeOrder_alone st f o s.part _ hr.symm (not_full_empty _ rfl) ho hchain (openChain_none _ (by simp))
    rw [show arrived o producer next 1 = y from hy.symm] at htake
    have hrefused := refused_alone st { s.part with oqu := s.part.oqu.set st r1 } r1 y
      ⟨next, producer, 1, .unclaimed, 0⟩ out (set_same s.part.oqu st r1) hstate howner hdeck hout hroom rfl
      (set_same slots producer _) (by rw [hy]) (by rw [hy]) rfl (by rw [hy]) rfl he
    refine cutOrder_settles dst src f st s _ 3 h hd hsrc hst (by decide) rfl rfl rfl ?_
    rw [htake]
    have hq : Part.sentU { s.part with
        oqu := (s.part.oqu.set st r1).set st
          { r1 with slots := r1.slots.set r1.consumer none, consumer := r1.consumer + 1, chains := [] }
        ntu := joinNotice s.part.ntu .chainRefused (some st) (.slot y.slot) }
        [recordFrame (closedRecord st y out)] = Part.sentU { s.part with
        oqu := s.part.oqu.set st ⟨slots.set producer none, producer + 1, producer + 1, [], next + 1⟩
        ntu := joinNotice s.part.ntu .chainRefused (some st) (.slot producer) } [record y out] := by
      rw [hrec y out (by rw [hy]), show y.slot = producer by rw [hy]]
      simp only [Vector.set_set, r1]
    exact hq ▸ hrefused
  · have hfull : r.producer + 1 ≠ r.consumer := by rw [hone, add_assoc]; simp
    have hne : r.consumer ≠ r.producer := by rw [hone]; simp
    have hys : y.slot = r.producer := by rw [hy]
    have hyx : ¬y.slot = x.slot := by rw [hys, hxs]; exact hne.symm
    have hxy : ¬x.slot = y.slot := fun e => hyx e.symm
    let r1 : Ring := { r with
      slots := r.slots.set r.producer (some y)
      producer := r.producer + 1
      chains := [⟨x.chain, x.slot, 2, .unclaimed, 0⟩] }
    have htake := takeOrder_completes st f o s.part r _ hr.symm hfull ho hchain hchains rfl
    rw [show arrived o r.producer x.chain (1 + 1) = y from hy.symm] at htake
    have hcheck : checkChain { s.part with oqu := s.part.oqu.set st r1 } st .start [x, y] = .error (failing, out)
        ∧ refusals [x, y] failing out = [(x.slot, ofX), (y.slot, ofY)] := by
      rcases he with ⟨he, hf, hX, hY⟩ | ⟨hg, he, hf, hX, hY⟩ <;> rw [hf, hX, hY]
      · have hfirst : checkMember { s.part with oqu := s.part.oqu.set st r1 } st .start x = .error out := he
        exact ⟨by simp only [checkChain, hfirst], by simp only [refusals, List.map_cons, List.map_nil, hyx, if_true, if_false]⟩
      · have hfirst : checkMember { s.part with oqu := s.part.oqu.set st r1 } st .start x = .ok g := hg
        have hsecond : checkMember { s.part with oqu := s.part.oqu.set st r1 } st g y = .error out := he
        exact ⟨by simp only [checkChain, hfirst, hsecond],
          by simp only [refusals, List.map_cons, List.map_nil, hxy, if_true, if_false]⟩
    have hrefused := refused_pair st { s.part with oqu := s.part.oqu.set st r1 } r1 r.producer x y
      ⟨x.chain, x.slot, 2, .unclaimed, 0⟩ out ofX ofY failing (set_same s.part.oqu st r1) hstate howner hdeck hout hroom hone
      rfl ((set_other r.slots r.producer r.consumer _ hne).trans hx) (set_same r.slots r.producer _) hxs hys hxq
      (by rw [hy]) rfl rfl (by rw [hy]) rfl hcheck.1 hcheck.2
    refine cutOrder_settles dst src f st s _ 4 h hd hsrc hst (by decide) rfl rfl rfl ?_
    rw [htake]
    have hcomm : ((r.slots.set r.producer (some y)).set r.consumer none).set r.producer none =
        (r.slots.set r.consumer none).set r.producer none := by
      rw [set_swap r.slots r.producer r.consumer (some y) none hne.symm, Vector.set_set]
    have hq : Part.sentU { s.part with
        oqu := (s.part.oqu.set st r1).set st
          { r1 with slots := (r1.slots.set r1.consumer none).set r.producer none, consumer := r.producer + 1, chains := [] }
        ntu := joinNotice s.part.ntu .chainRefused (some st) (.slot failing) }
        [recordFrame (closedRecord st x ofX), recordFrame (closedRecord st y ofY)] = Part.sentU { s.part with
        oqu := s.part.oqu.set st
          { r with
            slots := (r.slots.set r.consumer none).set r.producer none
            producer := r.producer + 1
            consumer := r.producer + 1
            chains := [] }
        ntu := joinNotice s.part.ntu .chainRefused (some st) (.slot failing) } [record x ofX, record y ofY] := by
      rw [hrec x ofX hxt, hrec y ofY (by rw [hy]), ← hcomm]
      simp only [Vector.set_set, r1]
    exact hq ▸ hrefused

end Sys2Proof.Machine
end

section
/-! PROOF. The undoing of a claim (R58, R103, R170, R142), and FLUSH (R59, R60). -/

namespace Sys2Proof.Machine

/-! ### A claim undone -/

/-- The records after the claim of an order that closes is undone (R103). -/
def freedSlabs (st : StationNo) (o : OrderRec) (slabs : Vector (Option Slab) 512) : Vector (Option Slab) 512 :=
  match o.sourceRecord with
  | some n => upd slabs n (releaseSlab ⟨st, o.slot⟩)
  | none => slabs

theorem freedSlabs_reserved (st : StationNo) (o : OrderRec) (slabs : Vector (Option Slab) 512) (n : SlabNo) (r : Slab)
    (hn : o.sourceRecord = some n) (hr : slabs[n] = some r) (hs : r.state = .reserved ⟨st, o.slot⟩) :
    freedSlabs st o slabs = slabs.set n (some { r with state := .stock }) := by
  have hfree : releaseSlab ⟨st, o.slot⟩ slabs[n] = some { r with state := .stock } := by
    rw [hr]
    exact congrArg some (if_pos hs)
  simp only [freedSlabs, hn, upd_eq_set, hfree]

theorem freedSlabs_kept (st : StationNo) (o : OrderRec) (slabs : Vector (Option Slab) 512)
    (h : ∀ n r, o.sourceRecord = some n → slabs[n] = some r → r.state ≠ .reserved ⟨st, o.slot⟩) :
    freedSlabs st o slabs = slabs := by
  unfold freedSlabs
  cases hn : o.sourceRecord with
  | none => rfl
  | some n =>
    refine upd_id _ _ _ ?_
    cases hr : slabs[n] with
    | none => rfl
    | some r => exact congrArg some (if_neg (h n r hn hr))

/-- R170, R172. -/
theorem job_lower_eq (j : Job) : j.lower = { j with
    outstanding := j.outstanding - 1
    state := if j.state = .closing ∧ j.outstanding - 1 = 0 ∧ j.pending = 0 then .closed else j.state } := by
  simp only [Job.lower, Job.settled]
  by_cases h : j.state = .closing ∧ j.outstanding - 1 = 0 ∧ j.pending = 0
  · simp only [h, and_self, if_true]
  · rw [if_neg h, if_neg h]

/-- The claim of an order is undone (R58), and the scan after the release of its water grants nothing (R142). -/
theorem undoClaim_eq (st : StationNo) (o : OrderRec) (lr : Bool) (p : Part) (ts : List Task) (w : Wbu)
    (hw : w = { p.wbu with
      reserved := p.wbu.reserved - o.remaining
      waitList := if o.state = .waiting then p.wbu.waitList.set st none else p.wbu.waitList })
    (hfit : lr = true ∨ NoneFits w) : undoClaim st o lr ⟨p, ts⟩ =
      ⟨{ p with
        stk := ⟨freedSlabs st o p.stk.slabs, p.stk.reservations - o.planned⟩
        jau := { p.jau with jobs := p.jau.jobs.set o.order.job p.jau.jobs[o.order.job].lower }
        wbu := w }, ts⟩ := by
  let q : Part := { p with
    stk := ⟨freedSlabs st o p.stk.slabs, p.stk.reservations - o.planned⟩
    jau := { p.jau with jobs := p.jau.jobs.set o.order.job p.jau.jobs[o.order.job].lower }
    wbu := w }
  have hscan : grantScan ⟨q, ts⟩ = ⟨q, ts⟩ ∨ lr = true := hfit.symm.imp_left fun hf => grantScan_none ⟨q, ts⟩ hf
  have hrelease : undoClaim st o lr ⟨p, ts⟩ = if lr then ⟨q, ts⟩ else grantScan ⟨q, ts⟩ := by
    simp only [undoClaim, releaseWater, Ev.map, q, hw, freedSlabs]
    cases o.sourceRecord <;> by_cases hs : o.state = .waiting <;> simp only [hs, if_true, if_false] <;> rfl
  rw [hrelease]
  cases lr with
  | true => rfl
  | false => exact hscan.resolve_right (by decide)

/-! ### FLUSH -/

section Flush
variable (dst src : Byte) (st : StationNo) (s : State) (h : Quiet s.part) (hd : dst.toNat ≤ 63) (hsrc : src.toNat ≤ 62)
  (hst : stationOf s.part dst = some st)
include h hd hsrc hst

/-- FLUSH is answered behind the records of the orders it closes, and the examinations follow. -/
theorem flush_settles (q r : Part) (ts : List Task) (n : Nat)
    (hact : flushStation st .cancelled false ⟨s.part, []⟩ = ⟨q, ts⟩) (hroom : q.portU.queue.length < 16)
    (hn : n ≤ Config.eventFuel) (hm : r.mgu = s.part.mgu) (hU : r.portU.waiting = s.part.portU.waiting)
    (hD : r.portD.waiting = s.part.portD.waiting)
    (hs : Settles n ⟨q.sentU [⟨0, 1, 0x86, [BitVec.ofNat 8 st.val, 4, 0]⟩], ts⟩ r) :
    exec (.flush dst src) s = .next (s.withPart r) := by
  refine fromCell_settles s r n h hn hm (hU.trans h.2.2.2.2.2.1) (hD.trans h.2.2.2.2.2.2) ⟨dst, src, 0x22, [4]⟩
    (fun st => stationCommand st 4) st hd hsrc hst ?_
  have hcmd : stationCommand st 4 ⟨s.part, []⟩ =
      commanded st 4 (flushStation st .cancelled false) (fun _ => .done) ⟨s.part, []⟩ := rfl
  rw [hcmd, commanded_room st 4 _ _ s.part q ts hact h.2.2.2.2.2.1 hroom]
  exact hs

end Flush

theorem closeOnDeck_none (st : StationNo) (outcome : CutOutcome) (lr : Bool) (e : Ev) (h : e.p.cpl[st].onDeck = none) :
    closeOnDeck st outcome lr e = e := by simp only [closeOnDeck, h]

/-- Behind the close of the on-deck order a flush closes the open orders of the ring and empties the chain list. -/
theorem flushStation_ring (st : StationNo) (outcome : CutOutcome) (lr : Bool) (p : Part) (ts : List Task) (e : Ev)
    (xs : List OrderRec) (he : closeOnDeck st outcome lr ⟨leaveWaitList st p, ts⟩ = e)
    (hx : e.p.oqu[st].openOrders = xs) :
    flushStation st outcome lr ⟨p, ts⟩ =
      (closeAll st (xs.map fun o => (o.slot, outcome)) lr e).map fun p =>
        p.upRing st fun r => { r with chains := [] } := by
  subst he hx
  rfl

/-- A flush of a station without open orders. -/
theorem flushStation_none (st : StationNo) (outcome : CutOutcome) (lr : Bool) (p : Part) (ts : List Task) (r : Ring)
    (hr : p.oqu[st] = r) (he : r.producer = r.consumer) (hd : p.cpl[st].onDeck = none) :
    flushStation st outcome lr ⟨p, ts⟩ =
      ⟨{ p with
        wbu := { p.wbu with waitList := p.wbu.waitList.set st none }
        oqu := p.oqu.set st { r with chains := [] } }, ts⟩ := by
  subst hr
  rw [flushStation_ring st outcome lr p ts ⟨leaveWaitList st p, ts⟩ [] (closeOnDeck_none st outcome lr _ hd)
    (openOrders_empty _ he)]
  rfl

/-- A flush of a station whose one open order is in its ring: its claim, if it has one, is undone to `w`. -/
theorem flushStation_one (st : StationNo) (outcome : CutOutcome) (lr : Bool) (p q : Part) (ts : List Task) (r : Ring)
    (x : OrderRec) (hr : p.oqu[st] = r) (hone : r.producer = r.consumer + 1) (hx : r.slots[r.consumer] = some x)
    (hslot : x.slot = r.consumer) (ho : x.isOpen = true) (hd : p.cpl[st].onDeck = none)
    (hundo : (if x.isClaimed then undoClaim st x lr ⟨leaveWaitList st p, ts⟩ else ⟨leaveWaitList st p, ts⟩) = ⟨q, ts⟩)
    (hq : q.oqu = p.oqu) (hroom : q.portU.queue.length < 16) :
    flushStation st outcome lr ⟨p, ts⟩ =
      ⟨Part.sentU
        { q with
          oqu := p.oqu.set st { r with slots := r.slots.set r.consumer (some (x.spent outcome)), chains := [] } }
        [recordFrame (closedRecord st x outcome)],
        (ts ++ [.station st]) ++ if x.state = .waiting then [.claim st] else []⟩ := by
  subst hr
  have hqr : q.oqu[st] = p.oqu[st] := congrArg (fun v : Vector Ring 8 => v[st]) hq
  have hclose := closeInRing_room st p.oqu[st].consumer outcome lr (leaveWaitList st p) q ts ts x hx ho hundo hroom
  rw [hqr, spend_one _ x outcome hone hx] at hclose
  rw [flushStation_ring st outcome lr p ts ⟨leaveWaitList st p, ts⟩ [x] (closeOnDeck_none st outcome lr _ hd)
    (openOrders_single _ x hone hx ho)]
  simp only [List.map_cons, List.map_nil, closeAll, List.foldl, hslot]
  rw [hclose]
  simp only [Ev.map, upRing_eq_set, Part.sentU, set_same, Vector.set_set, hq]

/-- A flush of a station whose one open order is on-deck, staged or not. -/
theorem closeOnDeck_eq (st : StationNo) (outcome : CutOutcome) (lr : Bool) (p q : Part) (ts : List Task) (d : OnDeck)
    (moved : List Frame) (hd : p.cpl[st].onDeck = some d)
    (hun : unstageOnDeck st ⟨p, ts⟩ = ⟨Part.sentD
      { p with cpl := p.cpl.set st { p.cpl[st] with onDeck := some { d with staged := none } } } moved, ts⟩)
    (hundo : undoClaim st d.order lr ⟨Part.sentD
      { p with cpl := p.cpl.set st { p.cpl[st] with onDeck := none } } moved, ts⟩ = ⟨q, ts⟩)
    (hroom : q.portU.queue.length < 16) :
    closeOnDeck st outcome lr ⟨p, ts⟩ =
      ⟨q.sentU [recordFrame (closedRecord st d.order outcome)], ts ++ [.station st]⟩ := by
  have hempty : (Part.sentD { p with cpl := p.cpl.set st { p.cpl[st] with onDeck := some { d with staged := none } } }
      moved).upCpl st (fun c => { c with onDeck := none }) =
      Part.sentD { p with cpl := p.cpl.set st { p.cpl[st] with onDeck := none } } moved := by
    simp only [upCpl_eq_set, Part.sentD, set_same, Vector.set_set]
  simp only [closeOnDeck, hd, Ev.map]
  rw [hun, hempty, hundo, offer_U _ _ rfl (by exact hroom)]
  rfl

/-- The CUT UNSTAGE that a staged order's close or the panel's claim sends. -/
def unstageFrames (p : Part) (st : StationNo) (d : OnDeck) : List Frame :=
  match d.staged with
  | some number => [⟨BitVec.ofNat 8 p.map[st].node, 1, 0x44, [number]⟩]
  | none => []

theorem unstageOnDeck_eq (st : StationNo) (d : OnDeck) (p : Part) (ts : List Task) (hd : p.cpl[st].onDeck = some d)
    (hf : p.cpl[st].frames = []) (hr : p.portD.queue.length < 16) :
    unstageOnDeck st ⟨p, ts⟩ = ⟨Part.sentD
      { p with cpl := p.cpl.set st { p.cpl[st] with onDeck := some { d with staged := none } } }
      (unstageFrames p st d), ts⟩ := by
  unfold unstageFrames
  cases hs : d.staged with
  | some number => exact unstageOnDeck_staged st d number p ts hd hs hf hr
  | none =>
    have hsame : p.cpl.set st { p.cpl[st] with onDeck := some { d with staged := none } } = p.cpl := by
      have hpipe : ({ p.cpl[st] with onDeck := some { d with staged := none } } : Pipeline) = p.cpl[st] := by
        rw [← hs, ← hd]
      rw [hpipe]
      exact Vector.set_getElem_self _
    rw [sentD_nil, hsame]
    refine unstageOnDeck_none st ⟨p, ts⟩ fun d' hd' => ?_
    obtain rfl := Option.some.inj (hd.symm.trans hd')
    exact hs

/-- A flush of a station whose one open order is on-deck. -/
theorem flushStation_onDeck (st : StationNo) (outcome : CutOutcome) (lr : Bool) (p : Part) (ts : List Task) (r : Ring)
    (d : OnDeck) (w : Wbu) (slabs : Vector (Option Slab) 512) (hr : p.oqu[st] = r) (he : r.producer = r.consumer)
    (hd : p.cpl[st].onDeck = some d) (hf : p.cpl[st].frames = []) (hD : p.portD.queue.length < 16)
    (hU : p.portU.queue.length < 16) (hstate : d.order.state = .onDeck)
    (hw : w = { p.wbu with
      waitList := p.wbu.waitList.set st none
      reserved := p.wbu.reserved - d.order.remaining })
    (hfit : lr = true ∨ NoneFits w) (hslabs : freedSlabs st d.order p.stk.slabs = slabs) :
    flushStation st outcome lr ⟨p, ts⟩ =
      ⟨Part.sentU (Part.sentD
        { p with
          cpl := p.cpl.set st { p.cpl[st] with onDeck := none }
          stk := ⟨slabs, p.stk.reservations - d.order.planned⟩
          jau := { p.jau with jobs := p.jau.jobs.set d.order.order.job p.jau.jobs[d.order.order.job].lower }
          wbu := w
          oqu := p.oqu.set st { r with chains := [] } }
        (unstageFrames p st d)) [recordFrame (closedRecord st d.order outcome)], ts ++ [.station st]⟩ := by
  subst hr hslabs
  have hun := unstageOnDeck_eq st d (leaveWaitList st p) ts hd hf hD
  have hundo := undoClaim_eq st d.order lr (Part.sentD
    { leaveWaitList st p with cpl := p.cpl.set st { p.cpl[st] with onDeck := none } } (unstageFrames p st d)) ts w (by
      rw [hw]
      simp only [Part.sentD, leaveWaitList, Part.upWbu, upd_eq_set, hstate, reduceCtorEq, if_false]) hfit
  have hclose := closeOnDeck_eq st outcome lr (leaveWaitList st p) _ ts d _ hd hun hundo hU
  exact (flushStation_ring st outcome lr p ts _ [] hclose (openOrders_empty _ he)).trans rfl

/-- The CUT RECORD SHORT of an order that OQU closes, its figures of zero but the passes and the time (R57). -/
theorem closedRecord_figures (st : StationNo) (x : OrderRec) (outcome : CutOutcome) (passes time : Nat)
    (hp : (closedRecord st x outcome).passes = passes) (ht : (closedRecord st x outcome).tEst = time) :
    recordFrame (closedRecord st x outcome) = ⟨0, 1, 0x81, num8 st.val ++ num8 x.slot.val ++ num16 x.order.tag
      ++ num8 x.order.job.val ++ num8 outcome.code ++ num16 (sourceCode x.order.source)
      ++ num16 x.order.len ++ num16 x.order.wid ++ num8 passes ++ num32 time ++ List.replicate 24 0⟩ := by
  subst hp ht
  rw [← show num32 0 ++ num32 0 ++ num32 0 ++ num32 0 ++ num32 0 ++ num32 0 = List.replicate 24 0 by decide]
  rfl

theorem isClaimed_of (x : OrderRec) (h : x.state = .waiting ∨ x.state = .admitted) : x.isClaimed = true := by
  rcases h with h | h <;> simp only [OrderRec.isClaimed, h]

theorem isOpen_of (x : OrderRec) (h : x.state = .waiting ∨ x.state = .admitted) : x.isOpen = true := by
  rcases h with h | h <;> simp only [OrderRec.isOpen, h]

/-- CPL finds nothing at a station with an empty ring and nothing on-deck. -/
theorem examineStation_empty (st : StationNo) (p : Part) (ts : List Task) (h : p.oqu[st].producer = p.oqu[st].consumer)
    (hd : p.cpl[st].onDeck = none) : examineStation st ⟨p, ts⟩ = ⟨p, ts⟩ := by
  refine (examineStation_passes st p ts p.oqu[st] (passSpent_none 16 _ (headSpent_empty _ h)) (headAdmitted_empty _ h)
    hd).trans ?_
  have hself : p.oqu.set st p.oqu[st] = p.oqu := Vector.set_getElem_self _
  rw [hself]

/-- The examinations behind a flush: CPL passes the spent slot, and OQU finds no chain. -/
theorem settles_flushed (st : StationNo) (p q : Part) (r : Ring) (x : OrderRec) (outcome : CutOutcome) (c : Prop)
    [Decidable c] (hone : r.producer = r.consumer + 1)
    (hr : p.oqu[st] = { r with slots := r.slots.set r.consumer (some (x.spent outcome)), chains := [] })
    (hd : p.cpl[st].onDeck = none)
    (hq : q = { p with
      oqu := p.oqu.set st { r with slots := r.slots.set r.consumer none, consumer := r.consumer + 1, chains := [] } }) :
    Settles 2 ⟨p, ([] ++ [.station st]) ++ if c then [.claim st] else []⟩ q := by
  subst hq
  refine settles_examined 1 st p _ _ _ (examineStation_spent st p _ r x outcome [] hone hr hd) ?_
  by_cases hc : c
  · rw [if_pos hc]
    refine settles_claimed 0 st _ _ _ [] (examineClaim_none st _ ?_) (settles_eq 0 _ _ rfl)
    exact unclaimedChain_none _ (congrArg Ring.chains (set_same _ _ _))
  · rw [if_neg hc]
    exact settles_at_once 1 _

/-- Settles O45. -/
theorem flushClosesTheOrders : Obligations.FlushClosesTheOrders := by
  rintro dst src st s r wait answer record h hd hsrc hst hr rfl rfl hrecord
  have flushes := fun q r ts n => flush_settles dst src st s h hd hsrc hst q r ts n
  have hrec : ∀ x passes time, (closedRecord st x .cancelled).passes = passes → (closedRecord st x .cancelled).tEst = time →
      recordFrame (closedRecord st x .cancelled) = record x passes time := fun x passes time hp ht =>
    (closedRecord_figures st x .cancelled passes time hp ht).trans (hrecord x passes time).symm
  refine ⟨fun hdeck => ⟨fun he hc hroom => ?_, fun x hone hx hslot hroom emptied hem => ⟨fun hq ht => ?_,
    fun t n slab j w hstate ht hn hslab hsr hj hw hfit => ?_⟩⟩,
    fun d t n slab j w hdeck hf he hc hroom hroomD hstate ht hn hslab hsr hj hw hfit => ?_⟩
  · have hflush := flushStation_none st .cancelled false s.part [] r hr.symm he hdeck
    have hring : s.part.oqu.set st { r with chains := [] } = s.part.oqu := by
      rw [← hc, hr]
      exact Vector.set_getElem_self _
    rw [hring] at hflush
    exact flushes _ _ [] 0 hflush hroom (by decide) rfl rfl rfl (settles_done _)
  · have hnot : ¬x.isClaimed = true := by simp only [OrderRec.isClaimed, hq, Bool.false_eq_true, not_false_eq_true]
    have hflush := flushStation_one st .cancelled false s.part _ [] r x hr.symm hone hx hslot (isOpen_queued x hq) hdeck
      (if_neg hnot) rfl (show s.part.portU.queue.length < 16 by omega)
    refine flushes _ _ _ 2 hflush ?_ (by decide) rfl rfl rfl (settles_flushed st _ _ r x .cancelled _ hone
      (set_same _ _ _) hdeck ?_)
    · simp only [Part.sentU, leaveWaitList, Part.upWbu, List.length_append, List.length_singleton]
      omega
    · rw [hrec x 0 0 (by simp only [closedRecord, ht]) (by simp only [closedRecord, ht]), hem]
      simp only [Part.sentU, leaveWaitList, Part.upWbu, upd_eq_set, Vector.set_set, List.append_assoc,
        List.singleton_append]
  · have hundo := undoClaim_eq st x false (leaveWaitList st s.part) [] w (by
      rw [hw]
      simp only [leaveWaitList, Part.upWbu, upd_eq_set, Vector.set_set, ite_self]) (.inr hfit)
    rw [show freedSlabs st x (leaveWaitList st s.part).stk.slabs = _ from
      freedSlabs_reserved st x s.part.stk.slabs n slab hn hslab hsr] at hundo
    have hflush := flushStation_one st .cancelled false s.part _ [] r x hr.symm hone hx hslot (isOpen_of x hstate) hdeck
      ((if_pos (isClaimed_of x hstate)).trans hundo) rfl (show s.part.portU.queue.length < 16 by omega)
    refine flushes _ _ _ 2 hflush ?_ (by decide) rfl rfl rfl (settles_flushed st _ _ r x .cancelled _ hone
      (set_same _ _ _) hdeck ?_)
    · simp only [Part.sentU, leaveWaitList, Part.upWbu, List.length_append, List.length_singleton]
      omega
    · rw [hrec x t.passes t.tEst (by simp only [closedRecord, ht]) (by simp only [closedRecord, ht]), hem, hj,
        ← job_lower_eq]
      simp only [Part.sentU, leaveWaitList, Part.upWbu, Vector.set_set, List.append_assoc, List.singleton_append]
  · have hslabs := freedSlabs_reserved st d.order s.part.stk.slabs n slab hn hslab hsr
    have hflush := flushStation_onDeck st .cancelled false s.part [] r d w _ hr.symm he hdeck hf hroomD
      (show s.part.portU.queue.length < 16 by omega) hstate hw (.inr hfit) hslabs
    have hring : s.part.oqu.set st { r with chains := [] } = s.part.oqu := by
      rw [← hc, hr]
      exact Vector.set_getElem_self _
    rw [hring, hrec d.order t.passes t.tEst (by simp only [closedRecord, ht]) (by simp only [closedRecord, ht]), hj.symm,
      job_lower_eq] at hflush
    refine flushes _ _ [.station st] 1 hflush ?_ (by decide) rfl rfl rfl
      (settles_examined 0 st _ _ _ [] (examineStation_empty st _ [] (by exact hr ▸ he) ?_) (settles_eq 0 _ _ ?_))
    · simp only [Part.sentU, Part.sentD, List.length_append, List.length_singleton]
      omega
    · exact congrArg Pipeline.onDeck (set_same s.part.cpl st _)
    · simp only [Part.sentU, Part.sentD, List.append_assoc, List.singleton_append]
      rfl

end Sys2Proof.Machine
end

section
/-! PROOF. A chain of one order claimed (R54, R55), granted its water (R137 to R139) and moved on-deck (R79); and NEW DAY
(R146). -/

namespace Sys2Proof.Machine

/-! ### The claim of one order -/

theorem examineClaim_claimed (st : StationNo) (p : Part) (ts : List Task) (c : Chain) (ms : List OrderRec) (g : Progress)
    (hm : mayClaim p st = true) (hc : p.oqu[st].unclaimedChain = some c) (hms : p.oqu[st].members c.id = ms)
    (he : checkChain p st .start ms = .ok g) :
    examineClaim st ⟨p, ts⟩ = requestWater st g.water ⟨makeClaim st c ms g p, ts⟩ := by
  simp only [examineClaim, hm, hc, hms, he, Bool.not_true, Bool.false_eq_true, if_false]
  rfl

/-- R54 for a chain of one order, alone in its ring, that names a slab. -/
theorem makeClaim_one (st : StationNo) (p : Part) (r : Ring) (y : OrderRec) (c : Chain) (g : Progress) (n : SlabNo)
    (slab : Slab) (t : Ticket) (hr : p.oqu[st] = r) (hy : r.slots[r.consumer] = some y) (hslot : y.slot = r.consumer)
    (hc : r.chains = [c]) (hn : y.order.source = .slab n) (hslab : p.stk.slabs[n] = some slab)
    (hg : g.tickets = [(y.slot, t)]) :
    makeClaim st c [y] g p =
      { p with
        stk := ⟨p.stk.slabs.set n (some { slab with state := .reserved ⟨st, y.slot⟩ }), p.stk.reservations + g.records⟩
        jau := { p.jau with
          jobs := p.jau.jobs.set y.order.job
            { p.jau.jobs[y.order.job] with outstanding := p.jau.jobs[y.order.job].outstanding + 1 } }
        oqu := p.oqu.set st
          { r with
            slots := r.slots.set r.consumer (some (y.claim t))
            chains := [{ c with state := .waiting, need := g.water }] } } := by
  subst hr
  have hreserve : (p.stk.slabs[n]).map (fun x : Slab => { x with state := .reserved ⟨st, y.slot⟩ }) =
      some { slab with state := .reserved ⟨st, y.slot⟩ } := congrArg _ hslab
  have hring := upOrder_eq p.oqu[st] p.oqu[st].consumer y (OrderRec.claim t) hy
  have hmap : (p.oqu[st].chains.map fun d => if d.id = c.id then { d with state := .waiting, need := g.water } else d) =
      [{ c with state := .waiting, need := g.water }] := by
    rw [hc, List.map_singleton, if_pos rfl]
  simp only [makeClaim, List.foldl, hg, claimMember, hn, reserveSlab, Part.upSlab, Part.upJob, Part.upStk, upRing_eq_set,
    upd_eq_set, hreserve]
  rw [hslot, hring, hmap]

/-! ### The grant -/

theorem requestWater_granted (st : StationNo) (need : Nat) (e : Ev) (h : grantOk e.p.wbu need = true) :
    requestWater st need e = grant st e := if_pos h

theorem requestWater_waits (st : StationNo) (need : Nat) (e : Ev) (h : ¬grantOk e.p.wbu need = true) :
    requestWater st need e =
      e.map fun p => { p with wbu := { p.wbu with waitList := p.wbu.waitList.set st (some need) } } := if_neg h

theorem grantOk_iff (w : Wbu) (need : Nat) : grantOk w need = true ↔
    w.freshness = .live ∧ w.quality = .clear ∧ w.band ≠ .low ∧ need ≤ w.level - w.consts.lowMark - w.reserved := by
  simp only [grantOk, grantsOpen, Bool.and_eq_true, decide_eq_true_eq, and_assoc]
  rfl

/-- R139 for a WAITING chain of one order, alone in its ring. -/
theorem grant_one (st : StationNo) (p : Part) (ts : List Task) (r : Ring) (y : OrderRec) (c : Chain) (t : Ticket)
    (hr : p.oqu[st] = r) (hone : r.producer = r.consumer + 1) (hy : r.slots[r.consumer] = some y)
    (hslot : y.slot = r.consumer) (hs : y.state = .waiting) (ht : y.ticket = some t) (hc : r.chains = [c])
    (hcs : c.state = .waiting) (hid : y.chain = c.id) :
    grant st ⟨p, ts⟩ =
      ⟨{ p with
        wbu := { p.wbu with
          waitList := p.wbu.waitList.set st none
          pointer := st
          reserved := p.wbu.reserved + t.water }
        oqu := p.oqu.set st
          { r with
            slots := r.slots.set r.consumer (some { y with state := .admitted, remaining := t.water })
            chains := [{ c with state := .admitted }] } }, ts ++ [.station st, .claim st]⟩ := by
  subst hr
  have hopen : y.isOpen = true := isOpen_of y (.inl hs)
  have hwaiting : p.oqu[st].waitingChain = some c := by
    simp only [Ring.waitingChain, hc, List.find?_cons, hcs, decide_true]
  have hms := members_eq p.oqu[st] c.id [y] (openOrders_single _ y hone hy hopen) (by simp [hid])
  have hneed : membersWater p.oqu[st] c.id = t.water := by
    simp only [membersWater, hms, List.map_singleton, ht, List.sum_singleton]
  have hadmit : y.admitted = { y with state := .admitted, remaining := t.water } := by
    simp only [OrderRec.admitted, ht]
  have hring : setChainState c.id .admitted (p.oqu[st].upMembers c.id OrderRec.admitted) =
      { p.oqu[st] with
        slots := p.oqu[st].slots.set p.oqu[st].consumer (some { y with state := .admitted, remaining := t.water })
        chains := [{ c with state := .admitted }] } := by
    have hmembers : p.oqu[st].upMembers c.id OrderRec.admitted =
        p.oqu[st].upOrder p.oqu[st].consumer OrderRec.admitted := by
      simp only [Ring.upMembers, hms, List.foldl, hslot]
    rw [setChainState, hmembers, upOrder_eq _ _ y _ hy, hadmit]
    simp only [hc, List.map_singleton, if_true]
  simp only [grant, hwaiting, hneed, Ev.map, Ev.later, upRing_eq_set, Part.upWbu, hring, List.append_assoc,
    List.singleton_append]
  rfl

/-- R138 where one station waits, and its need fits. -/
theorem grantScan_one (st : StationNo) (p q : Part) (ts ts' : List Task) (need : Nat)
    (hn : p.wbu.waitList[st] = some need) (hx : ∀ y : StationNo, y ≠ st → p.wbu.waitList[y] = none)
    (hok : grantOk p.wbu need = true) (hg : grant st ⟨p, ts⟩ = ⟨q, ts'⟩)
    (hq : q.wbu.waitList = p.wbu.waitList.set st none) : grantScan ⟨p, ts⟩ = ⟨q, ts'⟩ := by
  have hscan : scanOne ⟨p, ts⟩ st = ⟨q, ts'⟩ := by
    simp only [scanOne, hn, hok, if_true, hg]
  have hother : ∀ (e : Ev) (y : StationNo), e.p.wbu.waitList[y] = none → scanOne e y = e := by
    intro e y hy
    simp only [scanOne, hy]
  have hafter : ∀ y : StationNo, q.wbu.waitList[y] = none := by
    intro y
    rw [hq]
    by_cases hy : y = st
    · rw [hy, set_same]
    · rw [set_other _ _ _ _ hy]
      exact hx y hy
  have hfold : ∀ l : List StationNo, st ∈ l → l.foldl scanOne ⟨p, ts⟩ = ⟨q, ts'⟩ := by
    intro l
    induction l with
    | nil => simp
    | cons a l ih =>
      intro hmem
      simp only [List.foldl]
      by_cases ha : a = st
      · rw [ha, hscan]
        exact foldl_id _ _ _ fun y _ => hother _ y (hafter y)
      · rw [hother ⟨p, ts⟩ a (hx a ha)]
        exact ih (by simpa [Ne.symm ha] using hmem)
  have hall : ∀ a b : StationNo, b ∈ scanOrder a := by decide
  exact hfold _ (hall _ st)

/-! ### The move to on-deck (R79) -/

/-- What CPL does with the order it finds on-deck once the head of the ring is served. -/
theorem examineStation_deck (st : StationNo) (p q : Part) (ts : List Task) (d : OnDeck) (t : Ticket)
    (hq : moveOnDeck st (p.upRing st fun r => r.passSpent 16) = q) (hd : q.cpl[st].onDeck = some d)
    (ht : d.order.ticket = some t) : examineStation st ⟨p, ts⟩ =
      if mayPromote q st then if t.takeWhole then promoteWhole st d ⟨q, ts⟩ else promoteOrder st d t ⟨q, ts⟩
      else stageOnDeck st ⟨q, ts⟩ := by
  simp only [examineStation, Ev.map, hq, hd, ht]

/-- The head order, alone in its ring and ADMITTED, moves on-deck. -/
theorem moveOnDeck_one (st : StationNo) (p : Part) (r : Ring) (x : OrderRec) (hr : p.oqu[st] = r)
    (hone : r.producer = r.consumer + 1) (hx : r.slots[r.consumer] = some x) (hs : x.state = .admitted)
    (hd : p.cpl[st].onDeck = none) (hw : p.portU.waiting = []) :
    moveOnDeck st (p.upRing st fun r => r.passSpent 16) =
      { p with
        oqu := p.oqu.set st
          { r with slots := r.slots.set r.consumer none, consumer := r.consumer + 1, chains := [] }
        cpl := p.cpl.set st { p.cpl[st] with onDeck := some ⟨{ x with state := .onDeck }, none⟩ } } := by
  subst hr
  have hopen : x.isOpen = true := isOpen_of x (.inr hs)
  have hspent : p.oqu[st].headSpent = false := by rw [headSpent_eq _ x (isEmpty_one _ hone) hx, hopen]; rfl
  have hpass : p.upRing st (fun r => r.passSpent 16) = p := upRing_id _ _ _ (passSpent_none 16 _ hspent)
  have hplace : placeOccupied p st = false := by simp only [placeOccupied, PortState.anyWaits, hw, List.any_nil]
  have hhead : p.oqu[st].headAdmitted = some x := (headAdmitted_eq _ x (isEmpty_one _ hone) hx).trans (if_pos hs)
  have hadvance : (p.oqu[st].advance.passSpent 16).prune =
      { p.oqu[st] with
        slots := p.oqu[st].slots.set p.oqu[st].consumer none
        consumer := p.oqu[st].consumer + 1
        chains := [] } := by
    rw [passSpent_none 16 _ (headSpent_empty p.oqu[st].advance hone), prune_none _ (openOrders_empty _ hone)]
    rfl
  rw [hpass]
  simp only [moveOnDeck, hd, hplace, hhead, Option.isSome_none, Bool.or_self, Bool.false_eq_true, if_false, upRing_eq_set,
    hadvance]
  rfl

theorem stageOnDeck_none (st : StationNo) (e : Ev)
    (h : e.p.cpl[st].active = none ∨ e.p.stc[st].owner = .panel) : stageOnDeck st e = e := by
  have hcond : ∀ b : Bool, (b && e.p.cpl[st].active.isSome && decide (e.p.stc[st].owner = .cell)) = false := by
    intro b
    rcases h with h | h
    · rw [h, Option.isSome_none, Bool.and_false, Bool.false_and]
    · rw [h, decide_eq_false (by decide), Bool.and_false]
  unfold stageOnDeck
  split
  · rfl
  · split
    · rfl
    · rw [hcond]
      rfl

theorem mayPromote_not (p : Part) (st : StationNo) (h : p.stc[st].state ≠ .idle ∨ p.stc[st].owner = .panel) :
    mayPromote p st = false := by
  rw [Bool.eq_false_iff]
  intro hm
  simp only [mayPromote, Bool.and_eq_true, decide_eq_true_eq] at hm
  obtain ⟨⟨⟨⟨-, hs⟩, -⟩, ho⟩, -⟩ := hm
  rcases h with h | h
  · exact h hs
  · rw [h] at ho
    cases ho

end Sys2Proof.Machine
end

section
/-! PROOF. NEW DAY (R146, R144, R138). -/

namespace Sys2Proof.Machine

/-- NEW DAY to its grant scan, with ALLOWANCE_OUT not due. -/
theorem newDayBegins_eq (p : Part) (valve : Valve) (moved : List Frame) (hw : p.portD.waiting = [])
    (hr : p.portD.queue.length < 16) (ha : p.wbu.allowance = 0 ∨ 0 < p.wbu.consts.dailyAllowance)
    (hv : ValveMoves { p.wbu with allowance := p.wbu.consts.dailyAllowance } p.wbu.consts.plantNode valve moved) :
    newDayBegins ⟨p, []⟩ = grantScan ⟨Part.sentD
      { p with wbu := { p.wbu with allowance := p.wbu.consts.dailyAllowance, valve := valve } } moved, []⟩ := by
  have hout : ¬(0 < p.wbu.allowance ∧ p.wbu.consts.dailyAllowance = 0) := by omega
  have hset : setAllowance p.wbu.consts.dailyAllowance ⟨p, []⟩ =
      ⟨{ p with wbu := { p.wbu with allowance := p.wbu.consts.dailyAllowance } }, []⟩ := if_neg hout
  have hvalve := valveRule_moves p.wbu.consts.plantNode
    { p with wbu := { p.wbu with allowance := p.wbu.consts.dailyAllowance } } [] valve moved hw hr hv
  simp only [newDayBegins]
  rw [hset, hvalve]

theorem newDay_reply (r : Request) (p : Part) (ts : List Task) (e : Ev) (h : newDayBegins e = ⟨p, ts⟩) :
    sendReply r.code r.tag (newDay e) = sendReply r.code r.tag ⟨⟨p, ts⟩, .done, num32 p.wbu.allowance⟩ := by
  simp only [newDay, h, report]

/-- A day that begins with nothing granted. -/
theorem newDay_noneFits (tag : Byte) (s : State) (valve : Valve) (moved : List Frame) (h : Quiet s.part)
    (hU : RoomU 1 s.part) (hD : RoomD 1 s.part)
    (ha : s.part.wbu.allowance = 0 ∨ 0 < s.part.wbu.consts.dailyAllowance) (hfit : NoneFits s.part.wbu)
    (hv : ValveMoves { s.part.wbu with allowance := s.part.wbu.consts.dailyAllowance } s.part.wbu.consts.plantNode valve
      moved) :
    exec (.newDay tag) s = .next (s.answer (Part.sentD
      { s.part with wbu := { s.part.wbu with allowance := s.part.wbu.consts.dailyAllowance, valve := valve } } moved)
      0x33 tag .done (num32 s.part.wbu.consts.dailyAllowance)) := by
  refine request_sends (requestOf tag .newDay) s _ .done _ h ?_ rfl h.2.2.2.2.2.1 h.2.2.2.2.2.2 hU
  have hbegins := newDayBegins_eq (s.part.answering (requestOf tag .newDay)) valve moved h.2.2.2.2.2.2 hD ha hv
  rw [grantScan_none _ hfit] at hbegins
  exact newDay_reply (requestOf tag .newDay) _ _ _ hbegins

/-- CPL takes the granted order on-deck and leaves it there; OQU finds no other chain. -/
theorem settles_onDeck (st : StationNo) (p : Part) (r : Ring) (x : OrderRec) (t : Ticket) (hr : p.oqu[st] = r)
    (hone : r.producer = r.consumer + 1) (hx : r.slots[r.consumer] = some x) (hs : x.state = .admitted)
    (ht : x.ticket = some t) (hd : p.cpl[st].onDeck = none) (hw : p.portU.waiting = [])
    (hidle : (p.cpl[st].active = none ∧ p.stc[st].state ≠ .idle) ∨ p.stc[st].owner = .panel) :
    Settles 2 ⟨p, [.station st, .claim st]⟩
      { p with
        oqu := p.oqu.set st
          { r with slots := r.slots.set r.consumer none, consumer := r.consumer + 1, chains := [] }
        cpl := p.cpl.set st { p.cpl[st] with onDeck := some ⟨{ x with state := .onDeck }, none⟩ } } := by
  have hpipe := set_same p.cpl st { p.cpl[st] with onDeck := some ⟨{ x with state := .onDeck }, none⟩ }
  have hdeck := examineStation_deck st p _ [.claim st] ⟨{ x with state := .onDeck }, none⟩ t
    (moveOnDeck_one st p r x hr hone hx hs hd hw) (congrArg Pipeline.onDeck hpipe) ht
  have hpromote := mayPromote_not
    { p with
      oqu := p.oqu.set st
        { r with slots := r.slots.set r.consumer none, consumer := r.consumer + 1, chains := [] }
      cpl := p.cpl.set st { p.cpl[st] with onDeck := some ⟨{ x with state := .onDeck }, none⟩ } } st
    (hidle.imp_left And.right)
  rw [hpromote, if_neg (by decide), stageOnDeck_none st _
    (hidle.imp_left fun hi => (congrArg Pipeline.active hpipe).trans hi.1)] at hdeck
  refine settles_examined 1 st _ _ _ [.claim st] hdeck ?_
  refine settles_claimed 0 st _ _ _ [] (examineClaim_none st _ ?_) (settles_eq 0 _ _ rfl)
  exact unclaimedChain_none _ (congrArg Ring.chains (set_same p.oqu st _))

/-- Settles O32. -/
theorem newDaySetsTheAllowance : Obligations.NewDaySetsTheAllowance := by
  intro tag s h hU hD ha
  have hday : ∀ valve moved, s.part.wbu.valve = valve → moved = [] → Part.sentD
      { s.part with wbu := { s.part.wbu with allowance := s.part.wbu.consts.dailyAllowance, valve := valve } } moved =
      { s.part with wbu := { s.part.wbu with allowance := s.part.wbu.consts.dailyAllowance } } := by
    rintro _ _ rfl rfl
    rw [sentD_nil]
  refine ⟨fun hfit => ⟨fun hv hb hf hal => ?_, fun hv hc => ?_, fun hstay => ?_⟩, ?_⟩
  · exact newDay_noneFits tag s .opened _ h hU hD ha hfit (.inl ⟨hv, hb, hf, hal, rfl, rfl⟩)
  · exact newDay_noneFits tag s .closed _ h hU hD ha hfit (.inr (.inl ⟨hv, hc, rfl, rfl⟩))
  · rw [← hday s.part.wbu.valve [] rfl rfl]
    exact newDay_noneFits tag s s.part.wbu.valve [] h hU hD ha hfit (.inr (.inr ⟨hstay, rfl, rfl⟩))
  · intro st r x t need hstay hlive hclear hband hneed hothers hfits hr hone hx hslot hxs hxt hchains hdeck hidle
    have hvalve : ValveMoves { s.part.wbu with allowance := s.part.wbu.consts.dailyAllowance } s.part.wbu.consts.plantNode
        s.part.wbu.valve [] := by
      refine .inr (.inr ⟨hstay.imp (And.imp_right (Or.imp_right .inr)) ?_, rfl, rfl⟩)
      exact fun ⟨hv, hl, hal⟩ => ⟨hv, hl, hal, hlive⟩
    have hbegins := newDayBegins_eq (s.part.answering (requestOf tag .newDay)) s.part.wbu.valve [] h.2.2.2.2.2.2 hD ha hvalve
    rw [sentD_nil] at hbegins
    let day : Part := { s.part.answering (requestOf tag .newDay) with
      wbu := { s.part.wbu with allowance := s.part.wbu.consts.dailyAllowance } }
    have hgrant := grant_one st day [] r x _ t hr.symm hone hx hslot hxs hxt
      hchains rfl rfl
    have hscan := grantScan_one st day _ [] _ need hneed hothers
      ((grantOk_iff _ _).mpr ⟨hlive, hclear, hband, hfits⟩) hgrant rfl
    let admitted : OrderRec := { x with state := .admitted, remaining := t.water }
    let r1 : Ring := { r with
      slots := r.slots.set r.consumer (some admitted), chains := [⟨x.chain, x.slot, 1, .admitted, need⟩] }
    have hsettles := settles_onDeck st (Part.sentU { s.part with
        wbu := { s.part.wbu with
          allowance := s.part.wbu.consts.dailyAllowance
          waitList := s.part.wbu.waitList.set st none
          pointer := st
          reserved := s.part.wbu.reserved + t.water }
        oqu := s.part.oqu.set st r1 }
      [answerFrame 0x33 tag .done (num32 s.part.wbu.consts.dailyAllowance)]) r1 admitted t (set_same s.part.oqu st r1) hone
      (set_same r.slots r.consumer _) rfl hxt hdeck h.2.2.2.2.2.1 hidle
    refine (request_settles (requestOf tag .newDay) s { s.part with
        wbu := { s.part.wbu with
          allowance := s.part.wbu.consts.dailyAllowance
          waitList := s.part.wbu.waitList.set st none
          pointer := st
          reserved := s.part.wbu.reserved + t.water }
        oqu := s.part.oqu.set st r1 } _ [.station st, .claim st] 2 .done
      (num32 s.part.wbu.consts.dailyAllowance) h ?_ rfl hU hsettles (by decide) rfl h.2.2.2.2.2.1 h.2.2.2.2.2.2).trans ?_
    · exact newDay_reply (requestOf tag .newDay) _ _ _ (hbegins.trans hscan)
    · simp only [State.answer, Part.sentU, Vector.set_set, r1]
      rfl

end Sys2Proof.Machine
end

section
/-! PROOF. Promotion (R81, R82, R25), and an order that goes from its arrival to the saw in one event (R43 to R56,
R79 to R86). -/

namespace Sys2Proof.Machine

/-! ### The program's entry (R85, R86) -/

theorem placeProgram (st : StationNo) (kind : SawKind) (hk : kind = .run ∨ kind = .go) (number : Byte)
    (payload : List Byte) (p : Part) (ts : List Task) (hf : p.cpl[st].frames = []) (hr : p.portD.queue.length < 16) :
    placeSaw st kind (some number) payload ⟨p, ts⟩ =
      programEntered st ⟨p.sentD [toSaw p st kind.code payload], ts⟩ := by
  rw [placeSaw_alone st kind (some number) payload ⟨p, ts⟩ hf hr]
  rcases hk with rfl | rfl <;> rfl

theorem programEntered_runs (st : StationNo) (p : Part) (ts : List Task) (ms : Nat) (hs : p.stc[st].state = .running)
    (hb : p.stc[st].behind = none) (ho : p.cpl[st].overrun = .paused ms) :
    programEntered st ⟨p, ts⟩ = ⟨{ p with cpl := p.cpl.set st { p.cpl[st] with overrun := .running ms } }, ts⟩ := by
  have hstart : p.cpl[st].overrun.start = .running ms := by rw [ho]; rfl
  simp only [programEntered, Ev.map, hs, if_true, upCpl_eq_set, hstart, hb]

/-- The SAW PAUSE held behind the program enters with it. -/
theorem programEntered_pauses (st : StationNo) (p : Part) (ts : List Task) (f : Frame) (hs : p.stc[st].state = .held)
    (hb : p.stc[st].behind = some f) (hr : p.portD.queue.length < 16) :
    programEntered st ⟨p, ts⟩ =
      ⟨Part.sentD { p with stc := p.stc.set st { p.stc[st] with behind := none } } [f], ts⟩ := by
  have hnot : ¬p.stc[st].state = .running := by rw [hs]; decide
  simp only [programEntered, Ev.map, hnot, if_false, hb, offerFrame, Waiter.port, Part.port]
  rw [if_pos (hasRoom_of_lt _ (by exact hr))]
  simp only [push_D, upStc_eq_set]

/-! ### Promotion (R82) -/

/-- CPL's slots once the on-deck order is active: its ticket number, the last number formed and the overrun timer. -/
def activated (c : Pipeline) (d : OnDeck) (number last : Byte) (timer : Timer) : Pipeline :=
  { c with
    onDeck := none
    active := some ⟨{ d.order with state := .active }, number, 0, none, 0, 0⟩
    ticketNo := last
    overrun := timer }

theorem activate_eq (st : StationNo) (d : OnDeck) (t : Ticket) (number : Byte) (p : Part) (n : SlabNo) (slab : Slab)
    (h : Holder) (hn : d.order.sourceRecord = some n) (hslab : p.stk.slabs[n] = some slab)
    (hs : slab.state = .reserved h) :
    activate st d t number p =
      { p with
        stk := ⟨p.stk.slabs.set n (some { slab with state := .cutting h }), p.stk.reservations⟩
        cpl := p.cpl.set st
          (activated p.cpl[st] d number p.cpl[st].ticketNo (.paused (overrunLimit p.pipe t))) } := by
  have hcut : cutSlab p.stk.slabs[n] = some { slab with state := .cutting h } := by
    simp only [cutSlab, hslab, Option.map_some, hs]
  simp only [activate, hn, Part.upSlab, upd_eq_set, hcut, upCpl_eq_set]
  rfl

/-- R156, R151: the buffer is flushed and the usage becomes a target's. -/
theorem setTarget_flush (st : StationNo) (target : Target) (p : Part) (hf : p.psu.freeze ≠ .frozen) :
    setTarget st target (flushBuffer st p) =
      { p with psu := { p.psu with posts := p.psu.posts.set st { p.psu.posts[st].coverAll with target := target } } } := by
  simp only [flushBuffer, hf, if_false, setTarget, upPost_upPost]
  rfl

/-- What a promotion offers the saw: a CUT GO of the staged number, or a CUT RUN of the next one. -/
def IsProgram (p : Part) (st : StationNo) (d : OnDeck) (t : Ticket) (number last : Byte) (program : Frame) : Prop :=
  (d.staged = some number ∧ last = p.cpl[st].ticketNo
      ∧ program = ⟨BitVec.ofNat 8 p.map[st].node, 1, 0x43, [number]⟩)
    ∨ (d.staged = none ∧ number = p.cpl[st].ticketNo + 1 ∧ last = p.cpl[st].ticketNo + 1
      ∧ program = ⟨BitVec.ofNat 8 p.map[st].node, 1, 0x41, programBytes number t⟩)

section Promote
variable (st : StationNo) (d : OnDeck) (t : Ticket) (p : Part) (ts : List Task) (number last : Byte) (program : Frame)
  (n : SlabNo) (slab : Slab) (h : Holder) (limit : Nat) (hprog : IsProgram p st d t number last program)
  (hn : d.order.sourceRecord = some n) (hslab : p.stk.slabs[n] = some slab) (hs : slab.state = .reserved h)
  (hlimit : limit = overrunLimit p.pipe t)
include hprog hn hslab hs hlimit

/-- The order is active and the station has left IDLE as its program is offered. -/
theorem promoteOrder_offers : ∃ kind payload, (kind = .run ∨ kind = .go) ∧ toSaw p st kind.code payload = program
    ∧ promoteOrder st d t ⟨p, ts⟩ =
      ((placeSaw st kind (some number) payload ⟨enterPromoted st
        { p with
          stk := ⟨p.stk.slabs.set n (some { slab with state := .cutting h }), p.stk.reservations⟩
          cpl := p.cpl.set st (activated p.cpl[st] d number last (.paused limit)) }, ts⟩).map fun p =>
            setTarget st d.order.order.target (flushBuffer st p)).later (.station st) := by
  subst hlimit
  have hact := activate_eq st d t number p n slab h hn hslab hs
  rcases hprog with ⟨hst, rfl, rfl⟩ | ⟨hst, rfl, rfl, rfl⟩
  · refine ⟨.go, [number], .inr rfl, rfl, ?_⟩
    simp only [promoteOrder, hst, Ev.map, hact]
  · refine ⟨.run, programBytes (p.cpl[st].ticketNo + 1) t, .inl rfl, rfl, ?_⟩
    simp only [promoteOrder, hst, Ev.map, nextTicket, hact, upCpl_eq_set, set_same, Vector.set_set]
    rfl

variable (hframes : p.cpl[st].frames = []) (hfreeze : p.psu.freeze ≠ .frozen)
include hframes hfreeze

/-- Without a hold condition the station runs, and the program starts the overrun timer. -/
theorem promoteOrder_runs (holds : HoldSet) (hstc : p.stc[st] = ⟨.idle, .cell, holds, none⟩)
    (hroom : p.portD.queue.length < 16) (hhold : ¬holdCondition p.wbu = true) :
    promoteOrder st d t ⟨p, ts⟩ = ⟨Part.sentD
      { p with
        stk := ⟨p.stk.slabs.set n (some { slab with state := .cutting h }), p.stk.reservations⟩
        stc := p.stc.set st ⟨.running, .cell, holds, none⟩
        psu := { p.psu with
          posts := p.psu.posts.set st { p.psu.posts[st].coverAll with target := d.order.order.target } }
        cpl := p.cpl.set st (activated p.cpl[st] d number last (.running limit)) } [program], ts ++ [.station st]⟩ := by
  obtain ⟨kind, payload, hk, hf, heq⟩ := promoteOrder_offers st d t p ts number last program n slab h limit hprog hn hslab
    hs hlimit
  let q : Part := { p with
    stk := ⟨p.stk.slabs.set n (some { slab with state := .cutting h }), p.stk.reservations⟩
    stc := p.stc.set st ⟨.running, .cell, holds, none⟩
    cpl := p.cpl.set st (activated p.cpl[st] d number last (.paused limit)) }
  have henter : enterPromoted st
      { p with
        stk := ⟨p.stk.slabs.set n (some { slab with state := .cutting h }), p.stk.reservations⟩
        cpl := p.cpl.set st (activated p.cpl[st] d number last (.paused limit)) } = q := by
    refine (if_neg hhold).trans ?_
    simp only [upStc_eq_set, hstc, q]
  have hcpl : q.cpl[st] = activated p.cpl[st] d number last (.paused limit) := set_same p.cpl st _
  have hcontext : q.stc[st] = ⟨.running, .cell, holds, none⟩ := set_same p.stc st _
  have hruns := programEntered_runs st (q.sentD [program]) ts limit (congrArg StationCtx.state hcontext)
    (congrArg StationCtx.behind hcontext) (congrArg Pipeline.overrun hcpl)
  rw [heq, henter, placeProgram st kind hk number payload q ts ((congrArg Pipeline.frames hcpl).trans hframes) hroom,
    show toSaw q st kind.code payload = program from hf, hruns]
  simp only [Ev.map, Ev.later, Part.sentD]
  rw [hcpl, setTarget_flush _ _ _ (by exact hfreeze)]
  simp only [q, Vector.set_set, activated]

/-- Under a hold condition the station is HELD with WATER, and a SAW PAUSE enters behind the program. -/
theorem promoteOrder_pauses (holds : HoldSet) (hstc : p.stc[st] = ⟨.idle, .cell, holds, none⟩)
    (hroom : p.portD.queue.length + 1 < 16) (hhold : holdCondition p.wbu = true) :
    promoteOrder st d t ⟨p, ts⟩ = ⟨Part.sentD
      { p with
        stk := ⟨p.stk.slabs.set n (some { slab with state := .cutting h }), p.stk.reservations⟩
        stc := p.stc.set st ⟨.held, .cell, holds.put .water true, none⟩
        psu := { p.psu with
          posts := p.psu.posts.set st { p.psu.posts[st].coverAll with target := d.order.order.target } }
        cpl := p.cpl.set st (activated p.cpl[st] d number last (.paused limit)) }
      [program, ⟨BitVec.ofNat 8 p.map[st].node, 1, 0x45, []⟩], ts ++ [.station st]⟩ := by
  obtain ⟨kind, payload, hk, hf, heq⟩ := promoteOrder_offers st d t p ts number last program n slab h limit hprog hn hslab
    hs hlimit
  let pause : Frame := ⟨BitVec.ofNat 8 p.map[st].node, 1, 0x45, []⟩
  let q : Part := { p with
    stk := ⟨p.stk.slabs.set n (some { slab with state := .cutting h }), p.stk.reservations⟩
    stc := p.stc.set st ⟨.held, .cell, holds.put .water true, some pause⟩
    cpl := p.cpl.set st (activated p.cpl[st] d number last (.paused limit)) }
  have henter : enterPromoted st
      { p with
        stk := ⟨p.stk.slabs.set n (some { slab with state := .cutting h }), p.stk.reservations⟩
        cpl := p.cpl.set st (activated p.cpl[st] d number last (.paused limit)) } = q := by
    refine (if_pos hhold).trans ?_
    simp only [upStc_eq_set, hstc, q]
    rfl
  have hcpl : q.cpl[st] = activated p.cpl[st] d number last (.paused limit) := set_same p.cpl st _
  have hcontext : q.stc[st] = ⟨.held, .cell, holds.put .water true, some pause⟩ := set_same p.stc st _
  have hpauses := programEntered_pauses st (q.sentD [program]) ts pause (congrArg StationCtx.state hcontext)
    (congrArg StationCtx.behind hcontext) (by
      simp only [Part.sentD, List.length_append, List.length_singleton, q]
      exact hroom)
  rw [heq, henter, placeProgram st kind hk number payload q ts ((congrArg Pipeline.frames hcpl).trans hframes) (by
      exact Nat.lt_of_succ_lt hroom),
    show toSaw q st kind.code payload = program from hf, hpauses]
  simp only [Ev.map, Ev.later, Part.sentD]
  rw [hcontext, setTarget_flush _ _ _ (by exact hfreeze)]
  simp only [q, Vector.set_set, List.append_assoc, List.singleton_append, pause]

end Promote

end Sys2Proof.Machine
end

section
/-! PROOF. An order that is a chain of its own and comes to an empty ring: its claim (R49 to R54), its grant or its wait
(R55, R137), and its move to on-deck (R79); from there to the saw in the same event (R43 to R56, R81, R82). -/

namespace Sys2Proof.Machine

/-- An order that is a chain of its own meets no obstacle at the claim of its station, whose ring is empty. -/
structure PassesAlone (p : Part) (st : StationNo) (r : Ring) (o : Order) (n : SlabNo) (slab : Slab) (t : Ticket) :
    Prop where
  alone : o.chain = false
  ring : p.oqu[st] = r
  empty : r.producer = r.consumer
  chains : r.chains = []
  deck : p.cpl[st].onDeck = none
  state : p.stc[st].state ≠ .service
  owner : p.stc[st].owner = .cell
  job : p.jau.jobs[o.job].state = .opened
  source : o.source = .slab n
  record : p.stk.slabs[n] = some slab
  stock : slab.state = .stock
  unlocked : cuttable p.lck n.val = true
  ticket : ticketOf p.classes[p.map[st].cls] o.source slab.stone o.len o.wid = some t
  places : usedCount p.stk + p.stk.reservations + t.planned ≤ 512
  water : t.water ≤ p.wbu.consts.capacity - p.wbu.consts.lowMark

/-- The record of an order claimed alone, in one of its states. -/
def claimedOrder (r : Ring) (o : Order) (t : Ticket) (state : OrderState) (remaining : Nat) : OrderRec :=
  ⟨o, r.producer, state, r.nextChain, 1, some t, remaining, t.planned, none, false⟩

/-- The part once an order is claimed alone: it waits in its slot. -/
def claimedAlone (p : Part) (st : StationNo) (r : Ring) (o : Order) (n : SlabNo) (slab : Slab) (t : Ticket) : Part :=
  { p with
    oqu := p.oqu.set st
      { r with
        slots := r.slots.set r.producer (some (claimedOrder r o t .waiting 0))
        producer := r.producer + 1
        chains := [⟨r.nextChain, r.producer, 1, .waiting, t.water⟩]
        nextChain := r.nextChain + 1 }
    stk := ⟨p.stk.slabs.set n (some { slab with state := .reserved ⟨st, r.producer⟩ }), p.stk.reservations + t.planned⟩
    jau := { p.jau with
      jobs := p.jau.jobs.set o.job { p.jau.jobs[o.job] with outstanding := p.jau.jobs[o.job].outstanding + 1 } } }

/-- The part once its water is granted and CPL has taken it on-deck. -/
def deckAlone (p : Part) (st : StationNo) (r : Ring) (o : Order) (n : SlabNo) (slab : Slab) (t : Ticket) : Part :=
  { p with
    oqu := p.oqu.set st
      { r with
        slots := r.slots.set r.producer none
        producer := r.producer + 1
        consumer := r.producer + 1
        nextChain := r.nextChain + 1 }
    stk := ⟨p.stk.slabs.set n (some { slab with state := .reserved ⟨st, r.producer⟩ }), p.stk.reservations + t.planned⟩
    jau := { p.jau with
      jobs := p.jau.jobs.set o.job { p.jau.jobs[o.job] with outstanding := p.jau.jobs[o.job].outstanding + 1 } }
    wbu := { p.wbu with
      waitList := p.wbu.waitList.set st none
      pointer := st
      reserved := p.wbu.reserved + t.water }
    cpl := p.cpl.set st
      { p.cpl[st] with onDeck := some ⟨claimedOrder r o t .onDeck t.water, none⟩ } }

theorem checkChain_alone (p : Part) (st : StationNo) (y : OrderRec) (n : SlabNo) (slab : Slab) (t : Ticket)
    (hj : p.jau.jobs[y.order.job].state = .opened) (hn : y.order.source = .slab n) (hslab : p.stk.slabs[n] = some slab)
    (hs : slab.state = .stock) (hl : cuttable p.lck n.val = true)
    (ht : ticketOf p.classes[p.map[st].cls] y.order.source slab.stone y.order.len y.order.wid = some t)
    (hp : usedCount p.stk + p.stk.reservations + t.planned ≤ 512)
    (hw : t.water ≤ p.wbu.consts.capacity - p.wbu.consts.lowMark) :
    checkChain p st .start [y] = .ok ⟨[(y.slot, t)], some t, [] ++ namedSlab y.order, t.planned, t.water⟩ := by
  have hstone : memberStone p .start y.order = .ok slab.stone := by
    rw [memberStone_slab p .start y.order n hn slab hslab, if_neg (not_not.mpr hs), if_neg (by rw [hl]; decide),
      if_neg (by simp only [Progress.start, List.not_mem_nil, not_false_eq_true])]
  have hcheck := checkMember_ticket p st .start y hj slab.stone t hstone ht
  simp only [Progress.start, Nat.zero_add, List.nil_append] at hcheck
  rw [if_neg (Nat.not_lt.mpr hp), if_neg (Nat.not_lt.mpr hw)] at hcheck
  simp only [checkChain, Progress.start, hcheck, List.nil_append]

section Alone
variable (p : Part) (st : StationNo) (r : Ring) (o : Order) (n : SlabNo) (slab : Slab) (t : Ticket)
  (h : PassesAlone p st r o n slab t)
include h

/-- R54: the order is claimed in the event of its arrival, and its water requested. -/
theorem claims_alone (f : OrderFields) (ho : orderOf f = some o) (q : Part) (k : Nat)
    (hs : Settles k (requestWater st t.water ⟨claimedAlone p st r o n slab t, []⟩) q) :
    Settles (k + 1) (takeOrder st f ⟨p, []⟩) q := by
  obtain ⟨slots, producer, consumer, chains, next⟩ := r
  obtain rfl : producer = consumer := h.empty
  obtain rfl : chains = [] := h.chains
  let c : Chain := ⟨next, producer, 1, .unclaimed, 0⟩
  let y : OrderRec := arrived o producer next 1
  let r1 : Ring := ⟨slots.set producer (some y), producer + 1, producer, [c], next + 1⟩
  let p1 : Part := { p with oqu := p.oqu.set st r1 }
  have htake : takeOrder st f ⟨p, []⟩ = ⟨p1, [.claim st]⟩ :=
    takeOrder_alone st f o p _ h.ring (not_full_empty _ rfl) ho h.alone (openChain_none _ (by simp))
  have hring : p1.oqu[st] = r1 := set_same p.oqu st r1
  have hmay := mayClaim_open p1 st h.state h.owner (by rw [hring]; simp [r1, c])
  have hone := openOrders_single r1 y rfl (set_same slots producer _) (isOpen_queued y rfl)
  have hcheck := checkChain_alone p1 st y n slab t h.job h.source h.record h.stock h.unlocked h.ticket h.places h.water
  have hclaim := examineClaim_claimed st p1 [] c [y] _ hmay
    (by rw [hring]; exact unclaimedChain_one r1 c rfl rfl)
    (by rw [hring]; exact members_eq r1 c.id [y] hone (by simp [c, y, arrived])) hcheck
  have hmake := makeClaim_one st p1 r1 y c ⟨[(y.slot, t)], some t, [] ++ namedSlab y.order, t.planned, t.water⟩ n slab t
    hring (set_same slots producer _) rfl rfl h.source h.record rfl
  rw [hmake] at hclaim
  rw [htake]
  refine settles_claimed k st p1 q _ [] hclaim ?_
  simp only [p1, r1, Vector.set_set] at hs ⊢
  exact hs

/-- R137, R139, R79: the water is there, and CPL finds the order on-deck. -/
theorem decks_alone (f : OrderFields) (ho : orderOf f = some o) (hw : p.portU.waiting = [])
    (hok : p.wbu.freshness = .live ∧ p.wbu.quality = .clear ∧ p.wbu.band ≠ .low
      ∧ t.water ≤ p.wbu.level - p.wbu.consts.lowMark - p.wbu.reserved) (q : Part) (k : Nat)
    (hs : Settles k
      (if mayPromote (deckAlone p st r o n slab t) st then
        if t.takeWhole then promoteWhole st ⟨claimedOrder r o t .onDeck t.water, none⟩
          ⟨deckAlone p st r o n slab t, [.claim st]⟩
        else promoteOrder st ⟨claimedOrder r o t .onDeck t.water, none⟩ t ⟨deckAlone p st r o n slab t, [.claim st]⟩
      else stageOnDeck st ⟨deckAlone p st r o n slab t, [.claim st]⟩) q) :
    Settles (k + 2) (takeOrder st f ⟨p, []⟩) q := by
  refine claims_alone p st r o n slab t h f ho q (k + 1) ?_
  obtain ⟨slots, producer, consumer, chains, next⟩ := r
  obtain rfl : producer = consumer := h.empty
  obtain rfl : chains = [] := h.chains
  let r : Ring := ⟨slots, producer, producer, [], next⟩
  let waits : OrderRec := claimedOrder r o t .waiting 0
  let admitted : OrderRec := claimedOrder r o t .admitted t.water
  let c : Chain := ⟨r.nextChain, r.producer, 1, .waiting, t.water⟩
  let r1 : Ring := { r with
    slots := r.slots.set r.producer (some waits)
    producer := r.producer + 1
    chains := [c]
    nextChain := r.nextChain + 1 }
  let p1 : Part := claimedAlone p st r o n slab t
  have hgrant := grant_one st p1 [] r1 waits c t (set_same p.oqu st r1) rfl (set_same slots producer _) rfl rfl rfl rfl rfl
    rfl
  rw [requestWater_granted st t.water _ ((grantOk_iff _ _).mpr hok), hgrant]
  let r2 : Ring := { r1 with
    slots := r1.slots.set r1.consumer (some admitted), chains := [{ c with state := .admitted }] }
  let p2 : Part := { p1 with
    wbu := { p.wbu with
      waitList := p.wbu.waitList.set st none
      pointer := st
      reserved := p.wbu.reserved + t.water }
    oqu := p1.oqu.set st r2 }
  have hmove := moveOnDeck_one st p2 r2 admitted (set_same p1.oqu st r2) rfl
    (set_same r1.slots r1.consumer _) rfl h.deck hw
  have hring : ({ r2 with slots := r2.slots.set r2.consumer none, consumer := r2.consumer + 1, chains := [] } : Ring) =
      { r with
        slots := r.slots.set r.producer none
        producer := r.producer + 1
        consumer := r.producer + 1
        nextChain := r.nextChain + 1 } := by
    simp only [r2, r1, r, Vector.set_set]
  have hpart : moveOnDeck st (p2.upRing st fun r => r.passSpent 16) = deckAlone p st r o n slab t := by
    rw [hmove, hring]
    simp only [p2, p1, claimedAlone, deckAlone, Vector.set_set]
    rfl
  have hdeck := examineStation_deck st p2 _ [.claim st] ⟨claimedOrder r o t .onDeck t.water, none⟩ t hpart
    (congrArg Pipeline.onDeck (set_same p.cpl st _)) rfl
  exact settles_examined k st p2 q _ [.claim st] hdeck hs

end Alone

theorem mayPromote_idle (p : Part) (st : StationNo)
    (hstc : p.stc[st] = ⟨.idle, .cell, ⟨false, false, false⟩, none⟩)
    (ha : p.cpl[st].active = none) (hf : p.cpl[st].frames = []) (hz : p.psu.freeze ≠ .frozen)
    (hw : p.portU.waiting = []) : mayPromote p st = true := by
  have hhold : recordHoldEmpty p st = true := by simp only [recordHoldEmpty, PortState.anyWaits, hw, List.any_nil, Bool.not_false]
  simp only [mayPromote, ha, hhold, programWaits, hf, hstc, HoldSet.isEmpty, hz, Option.isNone_none, List.any_nil,
    Bool.not_false, decide_true, Bool.and_self, ne_eq, not_false_eq_true]

theorem holdCondition_not (w : Wbu) (hb : w.band ≠ .low) (hq : w.quality = .clear) : ¬holdCondition w = true := by
  simp only [holdCondition, hb, hq, decide_false, Bool.false_or, reduceCtorEq, Bool.false_eq_true, not_false_eq_true]

theorem sourceRecord_slab (x : OrderRec) (n : SlabNo) (h : x.order.source = .slab n) : x.sourceRecord = some n := by
  simp only [OrderRec.sourceRecord, h]

/-- Settles O44. -/
theorem anOrderAloneIsCutAtOnce : Obligations.AnOrderAloneIsCutAtOnce := by
  intro dst src f o st s r n slab t h hroom hd hsrc hst ho halone hr hrest hstc hfreeze hbuffer hjob hsource hslab hstock
    hcut hticket hcuts hplaces hwater
  obtain ⟨hempty, hchains, hdeck, hactive, hframes⟩ := hrest
  have hpass : PassesAlone s.part st r o n slab t :=
    ⟨halone, hr.symm, hr ▸ hempty, hr ▸ hchains, hdeck, by rw [hstc]; decide, by rw [hstc], hjob, hsource, hslab, hstock,
      hcut, hticket, hplaces, hwater⟩
  refine ⟨fun hl hq hb hfits => ?_, fun hno => ?_⟩
  · let w : Part := deckAlone s.part st r o n slab t
    let d : OnDeck := ⟨claimedOrder r o t .onDeck t.water, none⟩
    let c : Pipeline := { s.part.cpl[st] with onDeck := some d }
    let number : Byte := s.part.cpl[st].ticketNo + 1
    have hcpl : w.cpl[st] = c := set_same s.part.cpl st c
    have hwhole : ¬t.takeWhole = true := by
      rcases hcuts with hc | hc <;> simp [Ticket.takeWhole, hc]
    have hmay := mayPromote_idle w st hstc ((congrArg Pipeline.active hcpl).trans hactive)
      ((congrArg Pipeline.frames hcpl).trans hframes) hfreeze h.2.2.2.2.2.1
    have hprog : IsProgram w st d t number number
        ⟨BitVec.ofNat 8 s.part.map[st].node, 1, 0x41, programBytes number t⟩ := by
      refine .inr ⟨rfl, ?_, ?_, rfl⟩ <;> rw [hcpl]
    have hruns := promoteOrder_runs st d t w [.claim st] number number _ n
      { slab with state := .reserved ⟨st, r.producer⟩ } ⟨st, r.producer⟩ _ hprog (sourceRecord_slab _ n hsource)
      (set_same s.part.stk.slabs n _) rfl rfl ((congrArg Pipeline.frames hcpl).trans hframes) hfreeze
      ⟨false, false, false⟩ hstc hroom (holdCondition_not _ hb hq)
    refine cutOrder_settles dst src f st s _ 4 h hd hsrc hst (by decide) (by exact rfl) rfl rfl
      (decks_alone s.part st r o n slab t hpass f ho h.2.2.2.2.2.1 ⟨hl, hq, hb, hfits⟩ _ 2 ?_)
    rw [if_pos hmay, if_neg hwhole, hruns]
    have hring := set_same s.part.oqu st
      { r with
        slots := r.slots.set r.producer none
        producer := r.producer + 1
        consumer := r.producer + 1
        nextChain := r.nextChain + 1 }
    refine settles_claimed 1 st _ _ _ [.station st] (examineClaim_none st _ ?_)
      (settles_examined 0 st _ _ _ [] (examineStation_empty st _ [] ?_ ?_) (settles_eq 0 _ _ ?_))
    · exact unclaimedChain_none _ ((congrArg Ring.chains hring).trans hpass.chains)
    · exact (congrArg Ring.producer hring).trans (congrArg Ring.consumer hring).symm
    · exact congrArg Pipeline.onDeck (set_same w.cpl st _)
    · have hposting : s.part.psu.posts[st].coverAll = s.part.psu.posts[st] := by rw [coverAll_eq, if_pos hbuffer]
      simp only [w, deckAlone, hposting, set_same, Vector.set_set, activated, ← hdeck, d, claimedOrder]
      rfl
  · refine cutOrder_settles dst src f st s _ 1 h hd hsrc hst (by decide) (by exact rfl) rfl rfl
      (claims_alone s.part st r o n slab t hpass f ho _ 0 ?_)
    rw [requestWater_waits st t.water _ fun hok => hno ((grantOk_iff _ _).mp hok)]
    refine settles_eq 0 _ _ ?_
    simp only [claimedAlone, claimedOrder, hpass.empty]

end Sys2Proof.Machine
end

section
/-! PROOF. Completion (R93, R112, R113, R74, R158, R156, R170, R97). -/

namespace Sys2Proof.Machine

/-! ### The stock of a completed order (R93 step 2) -/

theorem remnantStates_stock (st : StationNo) (t : Ticket) :
    remnantStates st t none = t.kept.map fun _ => SlabState.stock := by
  simp only [remnantStates, List.mapIdx_eq_zipIdx_map]
  refine List.ext_getElem ?_ fun i h1 h2 => ?_
  · simp only [List.length_map, List.length_zipIdx]
  · simp only [List.getElem_map]

/-- R113: the first record created, that of remnant A, is RESERVED for the follower. -/
theorem remnantStates_follower (st : StationNo) (t : Ticket) (m : OrderRec) (first : Remnant) (others : List Remnant)
    (hk : t.kept = first :: others) (ha : t.planA.isSome) :
    remnantStates st t (some m) = .reserved ⟨st, m.slot⟩ :: others.map fun _ => SlabState.stock := by
  simp only [remnantStates, hk, ha, and_true, List.mapIdx_cons, if_true, Nat.succ_ne_zero, if_false]
  congr 1
  refine List.ext_getElem ?_ fun i h1 h2 => ?_
  · simp only [List.length_mapIdx, List.length_map]
  · simp only [List.getElem_mapIdx, List.getElem_map]

/-- With no follower every remnant is in STOCK. -/
theorem completeStock_alone (st : StationNo) (o : OrderRec) (t : Ticket) (n : SlabNo) (source : Slab) (bases : List Nat)
    (p : Part) (k : Stk × List (SlabNo × Nat × Nat)) (hf : nextMember p st o = none)
    (hk : createRemnants source n t.gen (t.kept.zip (bases.zip (t.kept.map fun _ => .stock))) p.stk = k) :
    completeStock st o t n source bases p =
      ({ p with stk := ⟨k.1.slabs.set n none, k.1.reservations - o.planned⟩ }, k.2) := by
  subst hk
  have hfollow : boundFollower p st o = none := by rw [boundFollower, hf]; rfl
  simp only [completeStock, hfollow, remnantStates_stock, upd_eq_set]

/-- The FOLLOW-ON on-deck of the same chain is the next member. -/
theorem boundFollower_deck (p : Part) (st : StationNo) (o : OrderRec) (d : OnDeck) (hd : p.cpl[st].onDeck = some d)
    (hs : d.order.state = .onDeck) (hf : d.order.order.source = .followOn) (hc : d.order.chain = o.chain)
    (hp : d.order.pos = o.pos + 1) : boundFollower p st o = some d.order := by
  have hopen : d.order.isOpen = true := by simp only [OrderRec.isOpen, hs]
  simp only [boundFollower, nextMember, hd, hc, hp, hopen, decide_true, Bool.and_self, if_true, Option.filter_some, hf]

/-- R113: the FOLLOW-ON on-deck is bound to the first record created. -/
theorem completeStock_binds (st : StationNo) (o : OrderRec) (t : Ticket) (n : SlabNo) (source : Slab) (bases : List Nat)
    (p : Part) (d : OnDeck) (first : Remnant) (others : List Remnant) (k : Stk × List (SlabNo × Nat × Nat))
    (number : SlabNo) (sides : Nat × Nat) (more : List (SlabNo × Nat × Nat)) (hd : p.cpl[st].onDeck = some d)
    (hs : d.order.state = .onDeck) (hf : boundFollower p st o = some d.order)
    (hkept : t.kept = first :: others) (ha : t.planA.isSome)
    (hk : createRemnants source n t.gen
      (t.kept.zip (bases.zip (.reserved ⟨st, d.order.slot⟩ :: others.map fun _ => .stock))) p.stk = k)
    (hmade : k.2 = (number, sides) :: more) :
    completeStock st o t n source bases p =
      ({ p with
        stk := ⟨k.1.slabs.set n none, k.1.reservations - o.planned⟩
        cpl := p.cpl.set st
          { p.cpl[st] with onDeck := some { d with order := { d.order with bound := some number } } } }, k.2) := by
  obtain ⟨plan, hplan⟩ := Option.isSome_iff_exists.mp ha
  simp only [completeStock, hf, remnantStates_follower st t d.order first others hkept ha, hk, hmade, hplan, bindFollower,
    hs, if_true, upCpl_eq_set, hd, Option.map_some, upd_eq_set]

/-! ### The charge (R158, R156) and the job (R170) -/

theorem coverAll_batch (x : Posting) : x.batch.coverAll = x.coverAll := by
  unfold Posting.batch
  split
  · cases hb : x.buffer with
    | nil => simp_all
    | cons => simp only [Posting.coverAll, hb, List.isEmpty_cons, Bool.false_eq_true, if_false]
  · rfl

/-- The job of a completed order: one outstanding order fewer, one pending entry more. -/
theorem lower_pending (j : Job) : ({ j with pending := j.pending + 1 } : Job).lower =
    { j with outstanding := j.outstanding - 1, pending := j.pending + 1 } := by
  rw [job_lower_eq]
  simp only [Nat.add_eq_zero_iff, Nat.one_ne_zero, and_false, if_false]

/-- The CHARGE entry is formed, the whole buffer is flushed, and the job lowered. -/
theorem chargeEntry_flush (st : StationNo) (target : Target) (material waste : Nat) (p : Part) (ts : List Task)
    (hb : p.psu.posts[st].buffer.length < 8) (hf : p.psu.freeze ≠ .frozen) :
    (((chargeEntry st target material waste ⟨p, ts⟩).map (flushBuffer st)).map (lowerJob target.job)) =
      ⟨{ p with
        psu := { p.psu with
          posts := p.psu.posts.set st
            ⟨p.psu.posts[st].target, p.psu.posts[st].buffer ++ [⟨target, true, 0, 0, 0, material, waste⟩],
              p.psu.posts[st].buffer.length + 1, .stopped⟩ }
        jau := { p.jau with
          jobs := p.jau.jobs.set target.job
            { p.jau.jobs[target.job] with
              outstanding := p.jau.jobs[target.job].outstanding - 1
              pending := p.jau.jobs[target.job].pending + 1 } } }, ts⟩ := by
  have hnot : ¬Config.bufferPlaces ≤ p.psu.posts[st].buffer.length := Nat.not_le.mpr hb
  have hbatch : ∀ q : Part, q.psu.freeze ≠ .frozen → flushBuffer st (batchTest st q) = q.upPost st Posting.coverAll := by
    intro q hq
    simp only [batchTest, hq, if_false, flushBuffer, upPost_upPost, coverAll_batch]
    exact if_neg hq
  simp only [chargeEntry, hnot, decide_false, Bool.false_and, Bool.false_eq_true, if_false, Ev.map, formEntry]
  rw [hbatch _ (by exact hf)]
  simp only [lowerJob, Part.upJob, upPost_eq_set, upd_eq_set, set_same, Vector.set_set, lower_pending, Posting.coverAll,
    List.isEmpty_iff, List.append_eq_nil_iff, List.cons_ne_nil, and_false, if_false, List.length_append,
    List.length_singleton]

/-! ### The order completes (R93) -/

/-- The record of an order that closes in CPL's slots enters at once, and CPL examines the station (R94). -/
theorem recordHold_enters (st : StationNo) (f : Frame) (p : Part) (ts : List Task) (hw : p.portU.waiting = [])
    (hr : p.portU.queue.length < 16) :
    offer (.recordHold st false f) ⟨p, ts⟩ = ⟨p.sentU [f], ts ++ [.station st]⟩ := by
  have hempty : recordHoldEmpty (p.sentU [f]) st = true := by
    simp only [recordHoldEmpty, PortState.anyWaits, Part.sentU, hw, List.any_nil, Bool.not_false]
  rw [offer_U _ _ rfl hr]
  exact if_pos hempty

/-- The posts of a completed order's station: its charge joins, and the whole buffer is drained. -/
def chargedPosting (x : Posting) (usage : Target) (o : Order) (s : Split) : Posting :=
  ⟨usage, x.buffer ++ [⟨o.target, true, 0, 0, 0, s.material, s.waste⟩], x.buffer.length + 1, .stopped⟩

/-- The job of a completed order. -/
def completedJob (j : Job) : Job := { j with outstanding := j.outstanding - 1, pending := j.pending + 1 }

theorem completeOrder_eq (st : StationNo) (o : OrderRec) (t : Ticket) (n : SlabNo) (source : Slab) (run water : Nat)
    (moved : Part → Part) (usage : Target) (p : Part) (ts : List Task) (stk : Stk) (cpl : Vector Pipeline 8)
    (made : List (SlabNo × Nat × Nat)) (split : Split) (w : Wbu)
    (hmoved : ∀ q : Part, q.psu.posts[st].target = p.psu.posts[st].target →
      moved q = q.upPost st fun x => { x with target := usage })
    (hsplit : split = splitOf t source.basis)
    (hstock : completeStock st o t n source split.bases p = ({ p with stk := stk, cpl := cpl }, made))
    (hw : w = { p.wbu with reserved := p.wbu.reserved - o.remaining }) (hfit : NoneFits w)
    (hb : p.psu.posts[st].buffer.length < 8) (hf : p.psu.freeze ≠ .frozen) (hnow : o.order.summaryNow = false)
    (hwait : p.portU.waiting = []) (hroom : p.portU.queue.length < 16) :
    completeOrder st o t n source run water moved ⟨p, ts⟩ =
      ⟨Part.sentU
        { p with
          stk := stk
          cpl := cpl
          wbu := w
          psu := { p.psu with posts := p.psu.posts.set st (chargedPosting p.psu.posts[st] usage o.order split) }
          jau := { p.jau with jobs := p.jau.jobs.set o.order.job (completedJob p.jau.jobs[o.order.job]) } }
        [recordFrame (doneRecord st o t run water split made)], ts ++ [.station st]⟩ := by
  subst hsplit
  let p1 : Part := { p with stk := stk, cpl := cpl, wbu := w }
  have hrelease : releaseWater o.remaining false ⟨{ p with stk := stk, cpl := cpl }, ts⟩ = ⟨p1, ts⟩ := by
    subst hw
    exact grantScan_none ⟨p1, ts⟩ hfit
  let s := splitOf t source.basis
  have hcharge := chargeEntry_flush st o.order.target s.material s.waste p1 ts hb hf
  have hmove : (((chargeEntry st o.order.target s.material s.waste ⟨p1, ts⟩).map fun q => moved (flushBuffer st q)).map
      (lowerJob o.order.job)) = ⟨{ p1 with
        psu := { p.psu with posts := p.psu.posts.set st (chargedPosting p.psu.posts[st] usage o.order s) }
        jau := { p.jau with jobs := p.jau.jobs.set o.order.job (completedJob p.jau.jobs[o.order.job]) } }, ts⟩ := by
    generalize hq : (chargeEntry st o.order.target s.material s.waste ⟨p1, ts⟩).map (flushBuffer st) = e at hcharge
    have htarget : e.p.psu.posts[st].target = p.psu.posts[st].target := by
      have hpost := congrArg (fun x : Ev => x.p.psu.posts[st].target) hcharge
      simp only [set_same] at hpost
      exact hpost
    have hcomm : (e.map moved).map (lowerJob o.order.job) =
        (e.map (lowerJob o.order.job)).map fun q => q.upPost st fun x => { x with target := usage } := by
      simp only [Ev.map, hmoved e.p htarget]
      rfl
    have hmap : (chargeEntry st o.order.target s.material s.waste ⟨p1, ts⟩).map (fun q => moved (flushBuffer st q)) =
        e.map moved := by
      rw [← hq]
      rfl
    rw [hmap, hcomm, show e.map (lowerJob o.order.job) = _ from hcharge]
    simp only [Ev.map, upPost_eq_set, set_same, Vector.set_set, chargedPosting, completedJob, p1]
    rfl
  simp only [completeOrder, hstock, hrelease]
  rw [hmove, hnow, recordHold_enters _ _ _ _ (by exact hwait) (by exact hroom)]

/-- R93 step 7, R27. -/
theorem leaveActive_eq (st : StationNo) (next : StationState) (p : Part) (hw : p.portD.waiting = []) :
    leaveActive st next p =
      { p with
        cpl := p.cpl.set st { p.cpl[st] with active := none, overrun := .stopped, stop := .stopped }
        stc := p.stc.set st { p.stc[st] with state := next, behind := none } } := by
  refine (discardPause_none st _ (by exact hw)).trans ?_
  simp only [upStc_eq_set, upCpl_eq_set, set_same, Vector.set_set]

theorem completeActive_eq (st : StationNo) (a : Active) (run : Nat) (p q : Part) (ts ts' : List Task) (t : Ticket)
    (n : SlabNo) (slab : Slab) (ht : a.order.ticket = some t) (hn : a.order.sourceRecord = some n)
    (hslab : p.stk.slabs[n] = some slab)
    (hc : completeOrder st a.order t n slab run a.waterUsed (setTarget st .house) ⟨p, ts⟩ = ⟨q, ts'⟩) :
    completeActive st a run ⟨p, ts⟩ = ⟨leaveActive st .idle q, ts' ++ [.station st]⟩ := by
  have hsource : orderSource p a.order = some (t, n, slab) := by
    simp only [orderSource, ht, hn, hslab, Option.bind_eq_bind, Option.bind_some, Option.pure_def]
  simp only [completeActive, hsource, hc]
  rfl

theorem mayPromote_held (p : Part) (st : StationNo)
    (h : p.stc[st].holds ≠ ⟨false, false, false⟩ ∨ p.stc[st].owner = .panel) : mayPromote p st = false := by
  rw [Bool.eq_false_iff]
  intro hm
  simp only [mayPromote, Bool.and_eq_true, decide_eq_true_eq] at hm
  obtain ⟨⟨⟨-, hh⟩, ho⟩, -⟩ := hm
  rcases h with h | h
  · refine h ?_
    revert hh
    generalize p.stc[st].holds = holds
    obtain ⟨a, b, c⟩ := holds
    cases a <;> cases b <;> cases c <;> decide
  · rw [h] at ho
    cases ho

theorem moveOnDeck_stays (st : StationNo) (p : Part) (hs : p.oqu[st].headSpent = false)
    (ha : p.oqu[st].headAdmitted = none) : moveOnDeck st (p.upRing st fun r => r.passSpent 16) = p := by
  have hpass : p.upRing st (fun r => r.passSpent 16) = p := upRing_id _ _ _ (passSpent_none 16 _ hs)
  rw [hpass]
  unfold moveOnDeck
  split
  · rfl
  · simp only [ha]

/-- CPL leaves a station as it is whose ring's head is not due and whose on-deck order, if it has one, is neither
promoted nor staged. -/
theorem examineStation_stays (st : StationNo) (e : Ev) (hs : e.p.oqu[st].headSpent = false)
    (ha : e.p.oqu[st].headAdmitted = none)
    (h : e.p.cpl[st].onDeck = none ∨ e.p.cpl[st].active = none ∧ mayPromote e.p st = false) :
    examineStation st e = e := by
  simp only [examineStation, Ev.map, moveOnDeck_stays st e.p hs ha]
  cases hd : e.p.cpl[st].onDeck with
  | none => rfl
  | some d =>
    cases ht : d.order.ticket with
    | none => simp only [ht]
    | some t =>
      rw [hd] at h
      obtain ⟨hactive, hno⟩ := h.resolve_left (by simp)
      simp only [ht, hno, Bool.false_eq_true, if_false]
      exact stageOnDeck_none st e (.inl hactive)

/-- The CUT RECORD of a completed order: SHORT without remnants, LONG with them (R97). -/
theorem doneRecord_frame (st : StationNo) (o : OrderRec) (t : Ticket) (n : SlabNo) (run water : Nat) (s : Split)
    (made : List (SlabNo × Nat × Nat)) (ht : o.ticket = some t) (hn : o.sourceRecord = some n) :
    recordFrame (doneRecord st o t run water s made) = ⟨0, 1, if made = [] then 0x81 else 0x82,
      num8 st.val ++ num8 o.slot.val ++ num16 o.order.tag ++ num8 o.order.job.val ++ num8 0 ++ num16 n.val
        ++ num16 o.order.len ++ num16 o.order.wid ++ num8 t.passes ++ num32 t.tEst ++ num32 run ++ num32 water
        ++ num32 s.material ++ num32 s.waste ++ num32 t.areaKerf ++ num32 t.areaScrap
        ++ if made = [] then [] else num8 made.length
          ++ made.flatMap fun y => num16 y.1.val ++ num16 y.2.1 ++ num16 y.2.2⟩ := by
  have hsource : recordSource o = BitVec.ofNat 16 n.val := by simp only [recordSource, hn]
  simp only [recordFrame, recordBytes, doneRecord, closedRecord, ht, hsource]
  cases made with
  | nil => rfl
  | cons => rfl

/-- A CUT DONE's event to its last examination. -/
theorem cutDone_settles (dst src ticket outcome : Byte) (run : Word) (st : StationNo) (s : State) (q : Part) (n : Nat)
    (h : Quiet s.part) (hd : dst.toNat ≤ 63) (hsrc : src.toNat ≤ 62) (hst : stationOf s.part src = some st)
    (hn : n ≤ Config.eventFuel) (hm : q.mgu = s.part.mgu) (hU : q.portU.waiting = s.part.portU.waiting)
    (hD : q.portD.waiting = s.part.portD.waiting)
    (hs : Settles n (doneReported st ticket outcome run.toNat ⟨s.part, []⟩) q) :
    exec (.cutDone dst src ticket outcome run) s = .next (s.withPart q) :=
  fromSaw_settles s q n h hn hm (hU.trans h.2.2.2.2.2.1) (hD.trans h.2.2.2.2.2.2)
    ⟨dst, src, 0x61, encodeCutDone ticket outcome run⟩ (fun st => doneReported st ticket outcome run.toNat) st hd hsrc hst
    hs

/-- Settles O51. -/
theorem completionSettlesTheOrder : Obligations.CompletionSettlesTheOrder := by
  intro dst src ticket run st s a o t n slab split x w settled h hroom hd hsrc hst hactive hticket hframes ho ht hn hslab
    hhead hspent hfreeze hw hfit hx hbuffer hnow hsplit hsettled
  subst ho
  have hreported : isReported s.part.cpl[st] ticket = true :=
    (isReported_iff _ _).mpr ⟨⟨a, hactive, hticket⟩, by simp only [programWaits, hframes, List.any_nil]⟩
  have completes : ∀ (stock : Stk × List (SlabNo × Nat × Nat)) (deck : Option OnDeck),
      completeStock st a.order t n slab split.bases s.part =
        ({ s.part with
          stk := ⟨stock.1.slabs.set n none, stock.1.reservations - a.order.planned⟩
          cpl := s.part.cpl.set st { s.part.cpl[st] with onDeck := deck } }, stock.2) →
      (deck = none ∨ s.part.stc[st].holds ≠ ⟨false, false, false⟩ ∨ s.part.stc[st].owner = .panel) →
      exec (.cutDone dst src ticket 0 run) s = .next (s.withPart (settled stock deck)) := by
    intro stock deck hstock hdue
    have horder := completeOrder_eq st a.order t n slab run.toNat a.waterUsed (setTarget st .house) .house s.part []
      _ _ stock.2 split w (fun _ _ => rfl) hsplit hstock hw hfit (hx ▸ hbuffer) hfreeze hnow h.2.2.2.2.2.1 hroom
    have hcomplete := completeActive_eq st { a with run := run.toNat } run.toNat s.part _ [] _ t n slab ht hn hslab horder
    rw [leaveActive_eq st .idle _ (by exact h.2.2.2.2.2.2)] at hcomplete
    have hdone : doneReported st ticket 0 run.toNat ⟨s.part, []⟩ =
        completeActive st { a with run := run.toNat } run.toNat ⟨s.part, []⟩ := by
      simp only [doneReported, hactive, hreported, Bool.not_true, Bool.false_eq_true, if_false]
      rfl
    have hsettles : doneReported st ticket 0 run.toNat ⟨s.part, []⟩ =
        ⟨settled stock deck, [.station st, .station st]⟩ := by
      rw [hdone, hcomplete, hsettled, ← doneRecord_frame st a.order t n run.toNat a.waterUsed split stock.2 ht hn, hx]
      simp only [Part.sentU, set_same, Vector.set_set, List.nil_append, List.singleton_append]
      rfl
    have hpipe : (settled stock deck).cpl[st] =
        { s.part.cpl[st] with onDeck := deck, active := none, overrun := .stopped, stop := .stopped } := by
      rw [hsettled]
      exact set_same s.part.cpl st _
    have hcontext : (settled stock deck).stc[st] = { s.part.stc[st] with state := .idle, behind := none } := by
      rw [hsettled]
      exact set_same s.part.stc st _
    have hring : (settled stock deck).oqu[st] = s.part.oqu[st] := by
      rw [hsettled]
      rfl
    have hstays : ∀ ts, examineStation st ⟨settled stock deck, ts⟩ = ⟨settled stock deck, ts⟩ := by
      intro ts
      refine examineStation_stays st _ ((congrArg Ring.headSpent hring).trans hspent)
        ((congrArg Ring.headAdmitted hring).trans hhead) ?_
      refine hdue.imp (fun hnone => (congrArg Pipeline.onDeck hpipe).trans hnone) fun hheld =>
        ⟨congrArg Pipeline.active hpipe, mayPromote_held _ st ?_⟩
      refine hheld.imp (fun hne he => hne ?_) fun howner => (congrArg StationCtx.owner hcontext).trans howner
      exact (congrArg StationCtx.holds hcontext).symm.trans he
    refine cutDone_settles dst src ticket 0 run st s _ 2 h hd hsrc hst (by decide) (by rw [hsettled]; rfl)
      (by rw [hsettled]; rfl) (by rw [hsettled]; rfl) ?_
    rw [hsettles]
    exact settles_examined 1 st _ _ _ _ (hstays _) (settles_examined 0 st _ _ _ _ (hstays _) (settles_done _))
  refine ⟨fun hdeck hmember => ?_, fun d first others stock number sides more hdeck hstate hfollow hchain hpos hheld hrem
    hkept hlist hstock hmade => ?_⟩
  · have hcpl : s.part.cpl.set st { s.part.cpl[st] with onDeck := none } = s.part.cpl := by
      rw [← hdeck]
      exact Vector.set_getElem_self _
    refine completes _ none ?_ (.inl rfl)
    rw [completeStock_alone st a.order t n slab split.bases s.part _ hmember rfl, hcpl]
  · have hplan : t.planA.isSome := by simp only [Ticket.planA, hrem, hkept, if_true, Option.isSome_some]
    exact completes stock _ (completeStock_binds st a.order t n slab split.bases s.part d first others stock number sides
      more hdeck hstate (boundFollower_deck s.part st a.order d hdeck hstate hfollow hchain hpos) hlist hplan hstock.symm
      hmade) (.inr hheld)

end Sys2Proof.Machine
end

section
/-! PROOF. Staging (R80) and the promotion of an on-deck order by a RESUME (R81 to R83). -/

namespace Sys2Proof.Machine

/-! ### Staging -/

theorem mayPromote_active (p : Part) (st : StationNo) (h : p.cpl[st].active ≠ none) : mayPromote p st = false := by
  obtain ⟨a, ha⟩ := Option.ne_none_iff_exists'.mp h
  simp only [mayPromote, ha, Option.isNone_some, Bool.false_and]

theorem stageOnDeck_whole (st : StationNo) (e : Ev) (d : OnDeck) (t : Ticket) (hd : e.p.cpl[st].onDeck = some d)
    (ht : d.order.ticket = some t) (hw : t.takeWhole = true) : stageOnDeck st e = e := by
  simp only [stageOnDeck, hd, ht, hw, Bool.not_true, Bool.and_false, Bool.false_and, Bool.false_eq_true, if_false]

/-- R80, R84: the CUT STAGE of the next ticket number enters, and the on-deck order is staged. -/
theorem stageOnDeck_stages (st : StationNo) (p : Part) (ts : List Task) (d : OnDeck) (t : Ticket) (number : Byte)
    (hd : p.cpl[st].onDeck = some d) (ht : d.order.ticket = some t) (hs : d.staged = none) (hw : t.takeWhole = false)
    (ha : p.cpl[st].active ≠ none) (ho : p.stc[st].owner = .cell) (hn : number = p.cpl[st].ticketNo + 1)
    (hf : p.cpl[st].frames = []) (hr : p.portD.queue.length < 16) :
    stageOnDeck st ⟨p, ts⟩ = ⟨Part.sentD
      { p with cpl := p.cpl.set st { p.cpl[st] with ticketNo := number, onDeck := some { d with staged := some number } } }
      [⟨BitVec.ofNat 8 p.map[st].node, 1, 0x42, programBytes number t⟩], ts⟩ := by
  subst hn
  obtain ⟨a, hactive⟩ := Option.ne_none_iff_exists'.mp ha
  let q : Part := { p with
    cpl := p.cpl.set st
      { p.cpl[st] with ticketNo := p.cpl[st].ticketNo + 1, onDeck := some { d with staged := some (p.cpl[st].ticketNo + 1) } } }
  have hstage : stageOnDeck st ⟨p, ts⟩ = placeSaw st .stage (some (p.cpl[st].ticketNo + 1))
      (programBytes (p.cpl[st].ticketNo + 1) t) ⟨q, ts⟩ := by
    simp only [stageOnDeck, hd, ht, hs, hw, hactive, ho, Option.isNone_none, Bool.not_false, Option.isSome_some, decide_true,
      Bool.and_self, if_true]
    rfl
  rw [hstage, placeSaw_alone st .stage _ _ ⟨q, ts⟩ ((congrArg Pipeline.frames (set_same p.cpl st _)).trans hf) hr]
  rfl

/-! ### A RESUME of an IDLE station -/

/-- What CPL does with the order on-deck of a station whose ring's head is not due. -/
theorem examineStation_serves (st : StationNo) (e : Ev) (d : OnDeck) (t : Ticket) (hs : e.p.oqu[st].headSpent = false)
    (ha : e.p.oqu[st].headAdmitted = none) (hd : e.p.cpl[st].onDeck = some d) (ht : d.order.ticket = some t)
    (hm : mayPromote e.p st = true) :
    examineStation st e = if t.takeWhole then promoteWhole st d e else promoteOrder st d t e := by
  refine (examineStation_deck st e.p e.p e.todo d t (moveOnDeck_stays st e.p hs ha) hd ht).trans ?_
  rw [if_pos hm]

/-- The last reason leaves an IDLE station: the COMMAND ANSWER enters, and CPL examines the station. -/
theorem resume_examines (dst src : Byte) (st : StationNo) (s : State) (answer : Frame) (q : Part) (n : Nat)
    (h : Quiet s.part) (hroom : RoomU 1 s.part) (hd : dst.toNat ≤ 63) (hsrc : src.toNat ≤ 62)
    (hst : stationOf s.part dst = some st) (hstc : s.part.stc[st] = ⟨.idle, .cell, ⟨false, false, true⟩, none⟩)
    (ha : answer = ⟨0, 1, 0x86, [BitVec.ofNat 8 st.val, 2, 0]⟩)
    (hn : n ≤ Config.eventFuel) (hm : q.mgu = s.part.mgu) (hU : q.portU.waiting = s.part.portU.waiting)
    (hD : q.portD.waiting = s.part.portD.waiting)
    (hs : Settles n ⟨Part.sentU
      { s.part with stc := s.part.stc.set st ⟨.idle, .cell, ⟨false, false, false⟩, none⟩ } [answer], [.station st]⟩ q) :
    exec (.resume dst src) s = .next (s.withPart q) := by
  subst ha
  refine fromCell_settles s q n h hn hm (hU.trans h.2.2.2.2.2.1) (hD.trans h.2.2.2.2.2.2) ⟨dst, src, 0x22, [2]⟩
    (fun st => stationCommand st 2) st hd hsrc hst ?_
  have hcmd : stationCommand st 2 ⟨s.part, []⟩ = commanded st 2 (resumeCommand st) (ownerStatus st) ⟨s.part, []⟩ := rfl
  have hleaves := removeHold_leaves s.part [] st .cell (by rw [hstc]; rfl) (.inr (by rw [hstc]; decide))
  rw [hstc, if_pos ⟨rfl, rfl⟩] at hleaves
  have hresume : resumeCommand st ⟨s.part, []⟩ =
      ⟨{ s.part with stc := s.part.stc.set st ⟨.idle, .cell, ⟨false, false, false⟩, none⟩ }, [.station st]⟩ :=
    (resumeCommand_cell st ⟨s.part, []⟩ (by rw [hstc])).trans hleaves
  rw [hcmd, commanded_room st 2 _ _ s.part _ _ hresume h.2.2.2.2.2.1 hroom, ownerStatus_cell st s.part (by rw [hstc])]
  exact hs

theorem upPost_self (p : Part) (st : StationNo) (t : Target) (h : p.psu.posts[st].target = t) :
    (p.upPost st fun x => { x with target := t }) = p := by
  have hsame : p.psu.posts.set st { p.psu.posts[st] with target := t } = p.psu.posts := by
    rw [← h]
    exact Vector.set_getElem_self _
  rw [upPost_eq_set, hsame]

theorem coverAll_fields (x : Posting) : x.coverAll = ⟨x.target, x.buffer,
    if x.buffer = [] then x.covered else x.buffer.length, if x.buffer = [] then x.timer else .stopped⟩ := by
  rw [coverAll_eq]
  by_cases h : x.buffer = []
  · rw [if_pos h, if_pos h, if_pos h]
  · rw [if_neg h, if_neg h, if_neg h]

theorem coverAll_buffer (x : Posting) : x.coverAll.buffer = x.buffer := by
  rw [coverAll_eq]
  split <;> rfl

theorem coverAll_target (x : Posting) : x.coverAll.target = x.target := by
  rw [coverAll_eq]
  split <;> rfl

/-- R83, R93: a take-whole order, the only open member of its chain, completes in the event that promotes it. -/
theorem promoteWhole_eq (st : StationNo) (d : OnDeck) (t : Ticket) (p : Part) (ts : List Task) (n : SlabNo) (slab : Slab)
    (split : Split) (w : Wbu) (ht : d.order.ticket = some t) (hn : d.order.sourceRecord = some n)
    (hslab : p.stk.slabs[n] = some slab) (hkept : t.kept = [])
    (hchain : ∀ y ∈ p.oqu[st].openOrders, y.chain ≠ d.order.chain) (hsplit : split = splitOf t slab.basis)
    (hw : w = { p.wbu with reserved := p.wbu.reserved - d.order.remaining }) (hfit : NoneFits w)
    (hb : p.psu.posts[st].buffer.length < 8) (hf : p.psu.freeze ≠ .frozen) (hnow : d.order.order.summaryNow = false)
    (hwait : p.portU.waiting = []) (hroom : p.portU.queue.length < 16) :
    promoteWhole st d ⟨p, ts⟩ =
      ⟨Part.sentU
        { p with
          stk := ⟨p.stk.slabs.set n none, p.stk.reservations - d.order.planned⟩
          cpl := p.cpl.set st { p.cpl[st] with onDeck := none }
          wbu := w
          psu := { p.psu with
            posts := p.psu.posts.set st
              (chargedPosting p.psu.posts[st] p.psu.posts[st].target d.order.order split) }
          jau := { p.jau with
            jobs := p.jau.jobs.set d.order.order.job (completedJob p.jau.jobs[d.order.order.job]) } }
        [recordFrame (doneRecord st d.order t 0 0 split [])], ts ++ [.station st] ++ [.station st]⟩ := by
  let q : Part := { p with
    cpl := p.cpl.set st { p.cpl[st] with onDeck := none }
    psu := { p.psu with posts := p.psu.posts.set st p.psu.posts[st].coverAll } }
  have hflush : flushBuffer st (p.upCpl st fun c => { c with onDeck := none }) = q := if_neg hf
  have hpost : q.psu.posts[st] = p.psu.posts[st].coverAll := set_same p.psu.posts st _
  have hdeck : q.cpl[st].onDeck = none := congrArg Pipeline.onDeck (set_same p.cpl st _)
  have hsource : orderSource q d.order = some (t, n, slab) := by
    have hrecord : q.stk.slabs[n] = some slab := hslab
    simp only [orderSource, ht, hn, hrecord, Option.bind_eq_bind, Option.bind_some, Option.pure_def]
  have hmember : nextMember q st d.order = none := by
    simp only [nextMember, hdeck]
    rw [List.find?_eq_none]
    intro y hy
    simp only [hchain y hy, decide_false, Bool.false_and, Bool.false_eq_true, not_false_eq_true]
  have hstock := completeStock_alone st d.order t n slab split.bases q (q.stk, []) hmember (by rw [hkept]; rfl)
  have horder := completeOrder_eq st d.order t n slab 0 0 id q.psu.posts[st].target q ts _ q.cpl [] split w
    (fun x hx => (upPost_self x st q.psu.posts[st].target hx).symm) hsplit hstock hw hfit
    (by rw [hpost, coverAll_buffer]; exact hb) hf hnow hwait hroom
  have hcharged : chargedPosting q.psu.posts[st] q.psu.posts[st].target d.order.order split =
      chargedPosting p.psu.posts[st] p.psu.posts[st].target d.order.order split := by
    simp only [chargedPosting, hpost, coverAll_buffer, coverAll_target]
  simp only [promoteWhole, Ev.map, hflush, hsource]
  rw [horder, hcharged]
  simp only [q, Vector.set_set]
  rfl

theorem kept_none (t : Ticket) (ha : t.remA = none) (hb : t.remB = none) : t.kept = [] := by
  simp only [Ticket.kept, keptList, remnantList, ha, hb, Option.toList_none, List.append_nil, List.filter_nil]

theorem takeWhole_not (t : Ticket) (h : t.rip = true ∨ t.cross = true) : t.takeWhole = false := by
  rcases h with h | h <;> simp [Ticket.takeWhole, h]

/-- The order behind an active one is on-deck, and staged unless it is take-whole. -/
theorem settles_staged (p : Part) (st : StationNo) (r : Ring) (o : Order) (n : SlabNo) (slab : Slab) (t : Ticket)
    (f : OrderFields) (number : Byte) (staged : Option Byte) (frames : List Frame) (hp : PassesAlone p st r o n slab t)
    (ho : orderOf f = some o) (hw : p.portU.waiting = []) (hroom : p.portD.queue.length < 16)
    (hactive : p.cpl[st].active ≠ none) (hframes : p.cpl[st].frames = [])
    (hok : p.wbu.freshness = .live ∧ p.wbu.quality = .clear ∧ p.wbu.band ≠ .low
      ∧ t.water ≤ p.wbu.level - p.wbu.consts.lowMark - p.wbu.reserved)
    (hstage : (t.rip = true ∨ t.cross = true) ∧ number = p.cpl[st].ticketNo + 1 ∧ staged = some number
        ∧ frames = [⟨BitVec.ofNat 8 p.map[st].node, 1, 0x42, programBytes number t⟩]
      ∨ t.rip = false ∧ t.cross = false ∧ number = p.cpl[st].ticketNo ∧ staged = none ∧ frames = []) :
    Settles 3 (takeOrder st f ⟨p, []⟩) (Part.sentD
      { deckAlone p st r o n slab t with
        cpl := p.cpl.set st
          { p.cpl[st] with onDeck := some ⟨claimedOrder r o t .onDeck t.water, staged⟩, ticketNo := number } } frames) := by
  let w : Part := deckAlone p st r o n slab t
  let d : OnDeck := ⟨claimedOrder r o t .onDeck t.water, none⟩
  have hcpl : w.cpl[st] = { p.cpl[st] with onDeck := some d } := set_same p.cpl st _
  have hwactive : w.cpl[st].active ≠ none := by
    rw [hcpl]
    exact hactive
  refine decks_alone p st r o n slab t hp f ho hw hok _ 1 ?_
  rw [mayPromote_active w st hwactive, if_neg (by decide)]
  have hstaged : stageOnDeck st ⟨w, [.claim st]⟩ = ⟨Part.sentD
      { w with cpl := p.cpl.set st { p.cpl[st] with onDeck := some { d with staged := staged }, ticketNo := number } }
      frames, [.claim st]⟩ := by
    rcases hstage with ⟨hcuts, hn, rfl, rfl⟩ | ⟨hrip, hcross, rfl, rfl, rfl⟩
    · have hstages := stageOnDeck_stages st w [.claim st] d t number (congrArg Pipeline.onDeck hcpl) rfl rfl
        (takeWhole_not t hcuts) hwactive hp.owner (by rw [hcpl]; exact hn) ((congrArg Pipeline.frames hcpl).trans hframes)
        hroom
      rw [hstages, hcpl]
      simp only [w, deckAlone, Vector.set_set]
    · rw [sentD_nil, stageOnDeck_whole st ⟨w, [.claim st]⟩ d t (congrArg Pipeline.onDeck hcpl) rfl
        (by simp only [Ticket.takeWhole, hrip, hcross, Bool.not_false, Bool.and_self])]
      rfl
  rw [hstaged]
  refine settles_claimed 0 st _ _ _ [] (examineClaim_none st _ ?_) (settles_done _)
  refine unclaimedChain_none _ ((congrArg Ring.chains (set_same p.oqu st _)).trans hp.chains)

/-- Settles O53. -/
theorem onDeckOrdersAreStagedAndPromoted : Obligations.OnDeckOrdersAreStagedAndPromoted := by
  refine ⟨?_, ?_⟩
  · intro dst src f o st s r n slab t number staged frames h hroom hd hsrc hst ho halone hr hempty hchains hdeck hactive
      hframes hstate howner hjob hsource hslab hstock hcut hticket hplaces hwater hlive hclear hband hfits hstage
    have hpass : PassesAlone s.part st r o n slab t :=
      ⟨halone, hr.symm, hempty, hchains, hdeck, hstate, howner, hjob, hsource, hslab, hstock, hcut, hticket, hplaces, hwater⟩
    exact cutOrder_settles dst src f st s _ 3 h hd hsrc hst (by decide) (by exact rfl) rfl rfl
      (settles_staged s.part st r o n slab t f number staged frames hpass ho h.2.2.2.2.2.1 hroom hactive hframes
        ⟨hlive, hclear, hband, hfits⟩ hstage)
  · intro dst src st s c d o t n slab x answer h hU hD hd hsrc hst hstc hc hactive hframes hdeck ho ht hn hslab hreserved
      hfreeze hspent hhead hx ha
    subst hc ho hx
    let w : Part := Part.sentU
      { s.part with stc := s.part.stc.set st ⟨.idle, .cell, ⟨false, false, false⟩, none⟩ } [answer]
    have hcontext : w.stc[st] = ⟨.idle, .cell, ⟨false, false, false⟩, none⟩ := set_same s.part.stc st _
    have hserves := examineStation_serves st ⟨w, []⟩ d t hspent hhead hdeck ht
      (mayPromote_idle w st hcontext hactive hframes hfreeze h.2.2.2.2.2.1)
    have hstays : ∀ p : Part, p.oqu = s.part.oqu → p.cpl[st].onDeck = none → ∀ ts,
        examineStation st ⟨p, ts⟩ = ⟨p, ts⟩ := by
      intro p hp hnone ts
      have hring : p.oqu[st] = s.part.oqu[st] := congrArg (fun v : Vector Ring 8 => v[st]) hp
      exact examineStation_stays st _ ((congrArg Ring.headSpent hring).trans hspent)
        ((congrArg Ring.headAdmitted hring).trans hhead) (.inl hnone)
    have promotes : ∀ (q : Part) (ts : List Task), examineStation st ⟨w, []⟩ = ⟨q, ts⟩ → (∀ x ∈ ts, x = .station st) →
        ts.length ≤ 2 → q.oqu = s.part.oqu → q.cpl[st].onDeck = none → q.mgu = s.part.mgu →
        q.portU.waiting = s.part.portU.waiting → q.portD.waiting = s.part.portD.waiting →
        exec (.resume dst src) s = .next (s.withPart q) := by
      intro q ts hq hts hlen hp hnone hm hwU hwD
      refine resume_examines dst src st s answer q (ts.length + 1) h (Nat.le_of_succ_le hU) hd hsrc hst hstc ha
        (Nat.le_trans (Nat.succ_le_succ hlen) (by decide)) hm hwU hwD (settles_examined _ st _ _ _ [] hq
        (settles_none q ts fun x hx rest => ?_))
      rw [hts x hx]
      exact hstays q hp hnone rest
    refine ⟨fun number program pause limit promoted hcuts hlimit hpause hpromoted hprogram last hlast => ?_,
      fun split j v hrip hcross hremA hremB hchain hnow hbuffer hsplit hj hv hfit => ?_⟩
    · have hprog : IsProgram w st d t number last program := by
        rcases hprogram with ⟨hs, hp⟩ | ⟨hs, hm, hp⟩ <;> rw [hs] at hlast
        · exact .inl ⟨hs, hlast, hp⟩
        · exact .inr ⟨hs, hm, hlast, hp⟩
      rw [takeWhole_not t hcuts, if_neg (by decide)] at hserves
      refine ⟨fun hband hquality => ?_, fun hhold => ?_⟩
      · have hruns := promoteOrder_runs st d t w [] number last program n slab _ limit hprog hn hslab hreserved hlimit
          hframes hfreeze ⟨false, false, false⟩ hcontext (Nat.lt_of_succ_lt hD) (holdCondition_not _ hband hquality)
        refine (promotes _ _ (hserves.trans hruns) (by simp) (by simp) rfl (congrArg Pipeline.onDeck
          (set_same s.part.cpl st _)) rfl rfl rfl).trans ?_
        rw [hpromoted]
        simp only [w, Part.sentU, Part.sentD, Vector.set_set, activated, coverAll_fields]
        rfl
      · have hpauses := promoteOrder_pauses st d t w [] number last program n slab _ limit hprog hn hslab hreserved hlimit
          hframes hfreeze ⟨false, false, false⟩ hcontext hD (by
            simp only [holdCondition, Bool.or_eq_true, decide_eq_true_eq]
            exact hhold)
        refine (promotes _ _ (hserves.trans hpauses) (by simp) (by simp) rfl (congrArg Pipeline.onDeck
          (set_same s.part.cpl st _)) rfl rfl rfl).trans ?_
        rw [hpromoted, hpause]
        simp only [w, Part.sentU, Part.sentD, Vector.set_set, activated, coverAll_fields]
        rfl
    · have hwhole : t.takeWhole = true := by simp only [Ticket.takeWhole, hrip, hcross, Bool.not_false, Bool.and_self]
      have hcompletes := promoteWhole_eq st d t w [] n slab split v ht hn hslab (kept_none t hremA hremB) hchain hsplit hv
        hfit hbuffer hfreeze hnow h.2.2.2.2.2.1 (by
          simp only [w, Part.sentU, List.length_append, List.length_singleton]
          exact hU)
      rw [hwhole, if_pos rfl, hcompletes, doneRecord_frame st d.order t n 0 0 split [] ht hn] at hserves
      refine (promotes _ _ hserves (by simp) (by simp) rfl (congrArg Pipeline.onDeck (set_same s.part.cpl st _)) rfl rfl
        rfl).trans ?_
      rw [hj, ← show num32 0 ++ num32 0 = List.replicate 8 0 by decide]
      simp only [w, Part.sentU, List.append_assoc, List.singleton_append, if_true, List.append_nil]
      rfl

end Sys2Proof.Machine
end

section
/-! PROOF. Failure of the active order and its cascade (R91, R95, R96, R88). -/

namespace Sys2Proof.Machine

/-- The part once the active order has failed (R95), its notices apart. -/
def failedPart (p : Part) (st : StationNo) (o : OrderRec) (n : SlabNo) (slab : Slab) (next : StationState) (u : Ntu) :
    Part :=
  { p with
    stk := ⟨p.stk.slabs.set n (some { slab with state := .doubtful }), p.stk.reservations - o.planned⟩
    wbu := { p.wbu with reserved := p.wbu.reserved - o.remaining }
    psu := { p.psu with posts := p.psu.posts.set st { p.psu.posts[st] with target := .house } }
    jau := { p.jau with jobs := p.jau.jobs.set o.order.job p.jau.jobs[o.order.job].lower }
    cpl := p.cpl.set st { p.cpl[st] with active := none, overrun := .stopped, stop := .stopped }
    stc := p.stc.set st { p.stc[st] with state := next, behind := none }
    ntu := u }

/-- R95, to the cascade: the record DOUBTFUL with its notice, the claim undone, the slot emptied and the record sent. -/
theorem failActive_closes (st : StationNo) (a : Active) (outcome : CutOutcome) (run : Nat) (next : StationState)
    (lr : Bool) (p : Part) (ts : List Task) (n : SlabNo) (slab : Slab) (h : Holder)
    (hn : a.order.sourceRecord = some n) (hslab : p.stk.slabs[n] = some slab) (hcut : slab.state = .cutting h)
    (hstate : a.order.state = .active) (hout : p.ntu.outstanding = true) (hwU : p.portU.waiting = [])
    (hwD : p.portD.waiting = []) (hroom : p.portU.queue.length < 16)
    (hfit : lr = true ∨ NoneFits { p.wbu with reserved := p.wbu.reserved - a.order.remaining }) (e : Ev)
    (he : e = ⟨(failedPart p st a.order n slab next (joinNotice p.ntu .slabDoubtful (some st) (.slab n))).sentU
      [recordFrame (failedRecord st a.order outcome run a.waterUsed)], ts ++ [.station st]⟩) :
    failActive st a outcome run next lr ⟨p, ts⟩ = (if lr then e else cascade st a.order 8 e).later (.station st) := by
  let p1 : Part := { p with
    stk := { p.stk with slabs := p.stk.slabs.set n (some { slab with state := .doubtful }) }
    ntu := joinNotice p.ntu .slabDoubtful (some st) (.slab n) }
  have hdoubt : doubtSlab p.stk.slabs[n] = some { slab with state := .doubtful } := by
    simp only [doubtSlab, hslab, Option.map_some, hcut]
  have hraise : raise .slabDoubtful (some st) (.slab n) ⟨p.upSlab n doubtSlab, ts⟩ = ⟨p1, ts⟩ := by
    rw [raise_outstanding _ _ _ _ hout]
    simp only [Ev.map, Part.upSlab, upd_eq_set, hdoubt]
    rfl
  have hkept : freedSlabs st a.order p1.stk.slabs = p1.stk.slabs := by
    refine freedSlabs_kept st a.order _ fun m r hm hr => ?_
    obtain rfl := Option.some.inj (hn.symm.trans hm)
    have hrecord : p1.stk.slabs[n] = some { slab with state := .doubtful } := set_same p.stk.slabs n _
    rw [← Option.some.inj (hrecord.symm.trans hr)]
    simp only [ne_eq, reduceCtorEq, not_false_eq_true]
  have hundo := undoClaim_eq st a.order lr p1 ts { p.wbu with reserved := p.wbu.reserved - a.order.remaining } (by
    simp only [hstate, reduceCtorEq, if_false]
    rfl) hfit
  rw [hkept] at hundo
  let p2 : Part := { p1 with
    stk := ⟨p1.stk.slabs, p1.stk.reservations - a.order.planned⟩
    jau := { p.jau with jobs := p.jau.jobs.set a.order.order.job p.jau.jobs[a.order.order.job].lower }
    wbu := { p.wbu with reserved := p.wbu.reserved - a.order.remaining } }
  have hundo' : undoClaim st a.order lr ⟨p1, ts⟩ = ⟨p2, ts⟩ := hundo
  have hleave : setTarget st .house (leaveActive st next p2) =
      failedPart p st a.order n slab next (joinNotice p.ntu .slabDoubtful (some st) (.slab n)) := by
    rw [leaveActive_eq st next p2 hwD]
    rfl
  have hrecord := recordHold_enters st (recordFrame (failedRecord st a.order outcome run a.waterUsed))
    (failedPart p st a.order n slab next (joinNotice p.ntu .slabDoubtful (some st) (.slab n))) ts hwU hroom
  simp only [failActive, hn, Ev.map]
  rw [hraise, hundo']
  simp only [hleave]
  rw [hrecord, ← he]

/-! ### The cascade (R96) -/

theorem cascade_none (st : StationNo) (o : OrderRec) (e : Ev) (h : nextMember e.p st o = none) (k : Nat) :
    cascade st o k e = e := by
  have hnone : boundFollower e.p st o = none := by rw [boundFollower, h]; rfl
  cases k with
  | zero => rfl
  | succ k => simp only [cascade, hnone]

theorem nextMember_none (p : Part) (st : StationNo) (o : OrderRec) (hd : p.cpl[st].onDeck = none)
    (h : ∀ y ∈ p.oqu[st].openOrders, y.chain ≠ o.chain) : nextMember p st o = none := by
  simp only [nextMember, hd]
  rw [List.find?_eq_none]
  intro y hy
  simp only [h y hy, decide_false, Bool.false_and, Bool.false_eq_true, not_false_eq_true]

theorem nextMember_congr (p q : Part) (st : StationNo) (o : OrderRec) (hd : p.cpl[st].onDeck = q.cpl[st].onDeck)
    (hr : p.oqu[st] = q.oqu[st]) : nextMember p st o = nextMember q st o := by
  simp only [nextMember, hd, hr]

/-- The FOLLOW-ON on-deck, the only other open order of its chain, closes PREDECESSOR_LOST. -/
theorem cascade_deck (st : StationNo) (o : OrderRec) (d : OnDeck) (p : Part) (ts : List Task)
    (hd : p.cpl[st].onDeck = some d) (hs : d.order.state = .onDeck) (hf : d.order.order.source = .followOn)
    (hc : d.order.chain = o.chain) (hp : d.order.pos = o.pos + 1) (hb : d.order.bound = none)
    (hothers : ∀ y ∈ p.oqu[st].openOrders, y.chain ≠ o.chain) (hw : p.portU.waiting = [])
    (hroom : p.portU.queue.length < 16)
    (hfit : NoneFits { p.wbu with reserved := p.wbu.reserved - d.order.remaining }) :
    cascade st o 8 ⟨p, ts⟩ = ⟨Part.sentU
      { p with
        stk := ⟨p.stk.slabs, p.stk.reservations - d.order.planned⟩
        wbu := { p.wbu with reserved := p.wbu.reserved - d.order.remaining }
        jau := { p.jau with jobs := p.jau.jobs.set d.order.order.job p.jau.jobs[d.order.order.job].lower }
        cpl := p.cpl.set st { p.cpl[st] with onDeck := none } }
      [recordFrame (failedRecord st d.order .predecessorLost 0 0)], ts ++ [.station st]⟩ := by
  have hfollower := boundFollower_deck p st o d hd hs hf hc hp
  have hsource : d.order.sourceRecord = none := by simp only [OrderRec.sourceRecord, hf, hb]
  have hundo := undoClaim_eq st d.order false { p with cpl := p.cpl.set st { p.cpl[st] with onDeck := none } } ts
    { p.wbu with reserved := p.wbu.reserved - d.order.remaining } (by simp only [hs, reduceCtorEq, if_false]) (.inr hfit)
  rw [freedSlabs_kept st d.order _ fun m r hm => by rw [hsource] at hm; cases hm] at hundo
  have hclose : closeFollower st d.order ⟨p, ts⟩ = ⟨Part.sentU
      { p with
        stk := ⟨p.stk.slabs, p.stk.reservations - d.order.planned⟩
        wbu := { p.wbu with reserved := p.wbu.reserved - d.order.remaining }
        jau := { p.jau with jobs := p.jau.jobs.set d.order.order.job p.jau.jobs[d.order.order.job].lower }
        cpl := p.cpl.set st { p.cpl[st] with onDeck := none } }
      [recordFrame (failedRecord st d.order .predecessorLost 0 0)], ts ++ [.station st]⟩ := by
    simp only [closeFollower, hs, if_true, Ev.map, upCpl_eq_set]
    rw [hundo]
    exact recordHold_enters st _ _ ts hw hroom
  have hcascade : cascade st o 8 ⟨p, ts⟩ = cascade st d.order 7 (closeFollower st d.order ⟨p, ts⟩) := by
    simp only [cascade, hfollower]
  rw [hcascade, hclose]
  refine cascade_none st d.order _ (nextMember_none _ st d.order (congrArg Pipeline.onDeck (set_same p.cpl st _)) ?_) 7
  rw [hc]
  exact hothers

/-- The CUT RECORD SHORT of an order that fails (R97). -/
theorem failedRecord_frame (st : StationNo) (o : OrderRec) (outcome : CutOutcome) (run water source : Nat) (t : Ticket)
    (ht : o.ticket = some t) (hs : recordSource o = BitVec.ofNat 16 source) :
    recordFrame (failedRecord st o outcome run water) = ⟨0, 1, 0x81, num8 st.val ++ num8 o.slot.val
      ++ num16 o.order.tag ++ num8 o.order.job.val ++ num8 outcome.code ++ num16 source ++ num16 o.order.len
      ++ num16 o.order.wid ++ num8 t.passes ++ num32 t.tEst ++ num32 run ++ num32 water ++ List.replicate 16 0⟩ := by
  rw [← show num32 0 ++ num32 0 ++ num32 0 ++ num32 0 = List.replicate 16 0 by decide]
  simp only [recordFrame, recordBytes, failedRecord, closedRecord, ht, hs]
  rfl

theorem noneFits_mono (w : Wbu) (a b : Nat) (h : b ≤ a) (hf : NoneFits { w with reserved := b }) :
    NoneFits { w with reserved := a } := by
  rintro st need hn ⟨hl, hq, hb, hfit⟩
  exact hf st need hn ⟨hl, hq, hb, Nat.le_trans hfit (Nat.sub_le_sub_left h _)⟩

/-! ### Reports -/

theorem doneReported_active (st : StationNo) (a : Active) (outcome : Byte) (run : Nat) (e : Ev)
    (ha : e.p.cpl[st].active = some a) (hf : e.p.cpl[st].frames = []) :
    (outcome = 1 → ∀ why, a.stop = some why → doneReported st a.ticket outcome run e =
      failActive st { a with run := run } why.outcome run .idle false e)
    ∧ (outcome = 1 → a.stop = none → doneReported st a.ticket outcome run e =
      failActive st { a with run := run } .aborted run .idle false (raise .cutAborted (some st) (.slot a.order.slot) e))
    ∧ (2 ≤ outcome.toNat → doneReported st a.ticket outcome run e =
      failActive st { a with run := run } .sawFault run .service false (raise .sawFault (some st) (.slot a.order.slot) e)) := by
  have hreported : isReported e.p.cpl[st] a.ticket = true :=
    (isReported_iff _ _).mpr ⟨⟨a, ha, rfl⟩, by simp only [programWaits, hf, List.any_nil]⟩
  refine ⟨?_, ?_, fun h2 => ?_⟩
  · rintro rfl why hs
    have hstopped : reportOf 1 = .stopped := rfl
    simp only [doneReported, ha, hreported, Bool.not_true, Bool.false_eq_true, if_false, hstopped, hs]
  · rintro rfl hs
    have hstopped : reportOf 1 = .stopped := rfl
    simp only [doneReported, ha, hreported, Bool.not_true, Bool.false_eq_true, if_false, hstopped, hs]
  · have hfault : reportOf outcome = .fault := by
      unfold reportOf
      split
      · omega
      · omega
      · rfl
    simp only [doneReported, ha, hreported, Bool.not_true, Bool.false_eq_true, if_false, hfault]

theorem stopExpired_running (st : StationNo) (a : Active) (ms : Nat) (e : Ev) (hs : e.p.cpl[st].stop = .running ms)
    (ha : e.p.cpl[st].active = some a) : stopExpired st e =
      raise .sawSilent (some st) (.slot a.order.slot) (failActive st a .noReply 0 .service false e) := by
  simp only [stopExpired, hs, ha]

theorem stopExpired_stopped (st : StationNo) (e : Ev) (hs : e.p.cpl[st].stop = .stopped) : stopExpired st e = e := by
  simp only [stopExpired, hs]

/-- Settles O52. -/
theorem failuresLeaveTheRecordDoubtful : Obligations.FailuresLeaveTheRecordDoubtful := by
  intro st s a o t n slab h lower doubtful onDeck records water jobs lost failed hq hU hactive hframes ho hstate ht hn hslab
    hcut hhead hspent hout hlower hbehind hfit hdoubtful hfailed
  subst ho
  have hlow : ∀ j, j.lower = lower j := fun j => (job_lower_eq j).trans (hlower j).symm
  have hsource : recordSource a.order = BitVec.ofNat 16 n.val := by simp only [recordSource, hn]
  have hnone : onDeck = none := by
    rcases hbehind with ⟨-, -, hd, -⟩ | ⟨d, m, u, first, -, -, -, -, -, -, -, -, -, hd, -⟩ <;> exact hd
  have hwater : a.order.remaining ≤ water := by
    rcases hbehind with ⟨-, -, -, -, hw, -⟩ | ⟨d, m, u, first, -, -, -, -, -, -, -, -, -, -, -, hw, -⟩ <;> omega
  have fails : ∀ (code : Byte) (outcome : CutOutcome) (run : Nat) (next : StationState) (u : Ntu),
      u.outstanding = true → num8 outcome.code = [code] → ∃ ts : List Task, (∀ x ∈ ts, x = .station st) ∧ ts.length ≤ 3
        ∧ failActive st { a with run := run } outcome run next false ⟨{ s.part with ntu := u }, []⟩ =
          ⟨failed code run next (doubtful u), ts⟩ := by
    intro code outcome run next u hu hcode
    let p : Part := { s.part with ntu := u }
    have hfirst : NoneFits { p.wbu with reserved := p.wbu.reserved - a.order.remaining } :=
      noneFits_mono s.part.wbu _ _ (Nat.sub_le_sub_left hwater _) hfit
    let q : Part := (failedPart p st a.order n slab next (joinNotice u .slabDoubtful (some st) (.slab n))).sentU
      [recordFrame (failedRecord st a.order outcome run a.waterUsed)]
    have hcloses : failActive st { a with run := run } outcome run next false ⟨p, []⟩ =
        (cascade st a.order 8 ⟨q, [.station st]⟩).later (.station st) :=
      failActive_closes st { a with run := run } outcome run next false p [] n slab h hn hslab hcut hstate hu
        hq.2.2.2.2.2.1 hq.2.2.2.2.2.2 (Nat.lt_of_succ_lt hU) (.inr hfirst) _ rfl
    have hframe := failedRecord_frame st a.order outcome run a.waterUsed n.val t ht hsource
    rw [hcode] at hframe
    have hpipe : q.cpl[st] = { s.part.cpl[st] with active := none, overrun := .stopped, stop := .stopped } :=
      set_same s.part.cpl st _
    obtain ⟨ts, hts, hlen, hcascade⟩ : ∃ ts : List Task, (∀ x ∈ ts, x = .station st) ∧ ts.length ≤ 2
        ∧ cascade st a.order 8 ⟨q, [.station st]⟩ = ⟨failed code run next (doubtful u), ts⟩ := by
      rcases hbehind with ⟨hmember, hdeck, -, rfl, rfl, rfl, rfl⟩ | ⟨d, m, v, first, hdeck, rfl, hms, hmf, hmc, hmp, hmb,
        hmt, hothers, -, rfl, rfl, rfl, rfl, rfl⟩
      · refine ⟨[.station st], by simp, by simp, ?_⟩
        have hkept : nextMember q st a.order = none := (nextMember_congr q s.part st a.order
          (by rw [hpipe]) rfl).trans hmember
        rw [cascade_none st a.order _ hkept 8, hfailed, hdoubtful, ← hframe, hnone, ← hdeck, ← hlow]
        rfl
      · refine ⟨[.station st, .station st], by simp, by simp, ?_⟩
        have hsecond : NoneFits { q.wbu with reserved := q.wbu.reserved - d.order.remaining } := by
          have hsum : q.wbu.reserved - d.order.remaining = s.part.wbu.reserved - (a.order.remaining + d.order.remaining) :=
            Nat.sub_sub _ _ _
          rw [hsum]
          exact hfit
        have hlost := failedRecord_frame st d.order .predecessorLost 0 0 65535 v hmt (by
          simp only [recordSource, OrderRec.sourceRecord, hmf, hmb]
          rfl)
        have hroom : q.portU.queue.length < 16 := by
          simp only [q, Part.sentU, failedPart, p, List.length_append, List.length_singleton]
          omega
        rw [cascade_deck st a.order d q [.station st] ((congrArg Pipeline.onDeck hpipe).trans hdeck) hms hmf hmc hmp hmb
          hothers hq.2.2.2.2.2.1 hroom hsecond, hfailed, hdoubtful, ← hframe, hnone, hlost, ← hlow, ← hlow]
        simp only [q, p, failedPart, Part.sentU, set_same, Vector.set_set, Nat.sub_sub, List.append_assoc,
          List.singleton_append]
        rfl
    refine ⟨ts ++ [.station st], ?_, ?_, ?_⟩
    · simpa [or_imp, forall_and] using hts
    · rw [List.length_append, List.length_singleton]
      omega
    · rw [hcloses, hcascade]
      rfl
  have hstays : ∀ (code : Byte) (run : Nat) (next : StationState) (u : Ntu) (ts : List Task),
      (∀ x ∈ ts, x = .station st) → Settles ts.length ⟨failed code run next u, ts⟩ (failed code run next u) := by
    intro code run next u ts hts
    refine settles_none _ ts fun x hx rest => ?_
    rw [hts x hx, hfailed]
    exact examineStation_stays st _ hspent hhead (.inl (Eq.trans (congrArg Pipeline.onDeck (set_same s.part.cpl st _)) hnone))
  refine ⟨fun dst src outcome run hd hsrc hst => ?_, fun ms hs => ?_, fun hs => ?_⟩
  · have hreport := doneReported_active st a outcome run.toNat ⟨s.part, []⟩ hactive hframes
    have reports : ∀ (code : Byte) (closes : CutOutcome) (next : StationState) (u : Ntu), u.outstanding = true →
        num8 closes.code = [code] → doneReported st a.ticket outcome run.toNat ⟨s.part, []⟩ =
          failActive st { a with run := run.toNat } closes run.toNat next false ⟨{ s.part with ntu := u }, []⟩ →
        exec (.cutDone dst src a.ticket outcome run) s = .next (s.withPart (failed code run.toNat next (doubtful u))) := by
      intro code closes next u hu hcode he
      obtain ⟨ts, hts, hlen, hf⟩ := fails code closes run.toNat next u hu hcode
      refine cutDone_settles dst src a.ticket outcome run st s _ ts.length hq hd hsrc hst
        (Nat.le_trans hlen (by decide)) (by rw [hfailed]; rfl) (by rw [hfailed]; rfl) (by rw [hfailed]; rfl) ?_
      rw [he, hf]
      exact hstays _ _ _ _ ts hts
    obtain ⟨hstop, habort, hfault⟩ := hreport
    have raises := fun kind => raise_outstanding kind (some st) (.slot a.order.slot) ⟨s.part, []⟩ hout
    refine ⟨fun h1 hs => ?_, fun h1 hs => ?_, fun h1 hs => ?_, fun h2 => ?_⟩
    · exact reports 1 .aborted .idle s.part.ntu hout rfl (hstop h1 .aborted hs)
    · exact reports 2 .overrun .idle s.part.ntu hout rfl (hstop h1 .overrun hs)
    · refine reports 1 .aborted .idle (joinNotice s.part.ntu .cutAborted (some st) (.slot a.order.slot))
        ((joinNotice_outstanding _ _ _ _).trans hout) rfl ((habort h1 hs).trans ?_)
      rw [raises .cutAborted]
      rfl
    · refine reports 3 .sawFault .service (joinNotice s.part.ntu .sawFault (some st) (.slot a.order.slot))
        ((joinNotice_outstanding _ _ _ _).trans hout) rfl ((hfault h2).trans ?_)
      rw [raises .sawFault]
      rfl
  · obtain ⟨ts, hts, hlen, hf⟩ := fails 4 .noReply 0 .service s.part.ntu hout rfl
    let q : Part := failed 4 0 .service (joinNotice (doubtful s.part.ntu) .sawSilent (some st) (.slot a.order.slot))
    have hexpired : stopExpired st ⟨s.part, []⟩ = ⟨q, ts⟩ := by
      have hraise := raise_outstanding .sawSilent (some st) (.slot a.order.slot) ⟨failed 4 0 .service (doubtful s.part.ntu), ts⟩
        (by
          rw [hfailed, hdoubtful]
          exact (joinNotice_outstanding _ _ _ _).trans hout)
      rw [stopExpired_running st a ms ⟨s.part, []⟩ hs hactive]
      refine (congrArg (raise .sawSilent (some st) (.slot a.order.slot)) hf).trans (hraise.trans ?_)
      simp only [Ev.map, q, hfailed]
      rfl
    refine live_settles s q ts.length hq (Nat.le_trans hlen (by decide)) (by simp only [q, hfailed]; rfl)
      (by simp only [q, hfailed]; exact hq.2.2.2.2.2.1) (by simp only [q, hfailed]; exact hq.2.2.2.2.2.2) (stopExpired st) ?_
    rw [hexpired]
    exact hstays _ _ _ _ ts hts
  · exact live_quiet s (stopExpired st) s.part hq (stopExpired_stopped st _ hs) rfl rfl rfl

end Sys2Proof.Machine
end

section
/-! PROOF. USAGE samples (R92, R141, R152, R153). -/

namespace Sys2Proof.Machine

/-- R152, R154, R157, R171: an entry joins the buffer, and a batch of four starts a drain. -/
theorem formEntry_eq (st : StationNo) (y : Entry) (p : Part) (x : Posting) (hx : p.psu.posts[st] = x) :
    formEntry st y p =
      { p with
        psu := { p.psu with
          posts := p.psu.posts.set st
            ⟨x.target, x.buffer ++ [y],
              if p.psu.freeze ≠ .frozen ∧ x.covered = 0 ∧ 3 ≤ x.buffer.length then 4 else x.covered,
              if p.psu.freeze ≠ .frozen ∧ x.covered = 0 ∧ x.buffer.length = 3 then .stopped
              else .running (p.psu.period * 100)⟩ }
        jau := { p.jau with
          jobs := p.jau.jobs.set y.target.job
            { p.jau.jobs[y.target.job] with pending := p.jau.jobs[y.target.job].pending + 1 } } } := by
  subst hx
  simp only [formEntry, batchTest, upPost_eq_set, Part.upJob, upd_eq_set, set_same, Vector.set_set]
  by_cases hz : p.psu.freeze = .frozen
  · simp only [hz, if_true, ne_eq, not_true_eq_false, false_and, if_false]
  · simp only [hz, if_false, ne_eq, not_false_eq_true, true_and, Posting.batch, List.length_append, List.length_singleton]
    have h4 : 4 ≤ p.psu.posts[st].buffer.length + 1 ↔ 3 ≤ p.psu.posts[st].buffer.length := by omega
    have h3 : p.psu.posts[st].buffer.length + 1 = 4 ↔ p.psu.posts[st].buffer.length = 3 := by omega
    simp only [h4, h3]
    by_cases hb : p.psu.posts[st].covered = 0 ∧ 3 ≤ p.psu.posts[st].buffer.length
    · simp only [hb, and_self, true_and, if_true]
    · have hn : ¬(p.psu.posts[st].covered = 0 ∧ p.psu.posts[st].buffer.length = 3) := fun ⟨hc, hl⟩ => hb ⟨hc, by omega⟩
      simp only [hb, hn, if_false]

/-! ### Merging (R153) -/

theorem mergeNewest_none (t : Target) (w en r : Nat) (buffer : List Entry)
    (h : ∀ y ∈ buffer, y.charge = true ∨ y.target ≠ t) : mergeNewest t w en r buffer = none := by
  induction buffer with
  | nil => rfl
  | cons y rest ih =>
    obtain ⟨hy, hrest⟩ := List.forall_mem_cons.mp h
    have hno : ¬(y.charge = false ∧ y.target = t) := by
      rintro ⟨hc, ht⟩
      rcases hy with hy | hy
      · rw [hc] at hy
        cases hy
      · exact hy ht
    simp only [mergeNewest, ih hrest]
    exact if_neg hno

/-- A sample's figures added to an entry. -/
def Entry.takes (y : Entry) (w en r : Nat) : Entry :=
  { y with
    water := min 4294967295 (y.water + w), energy := min 4294967295 (y.energy + en), run := min 4294967295 (y.run + r) }

theorem mergeNewest_newest (t : Target) (w en r : Nat) (older later : List Entry) (newest : Entry)
    (hc : newest.charge = false) (ht : newest.target = t) (h : ∀ y ∈ later, y.charge = true ∨ y.target ≠ t) :
    mergeNewest t w en r (older ++ newest :: later) =
      some (older ++ newest.takes w en r :: later,
        saturates newest.water w || saturates newest.energy en || saturates newest.run r) := by
  induction older with
  | nil =>
    simp only [List.nil_append, mergeNewest, mergeNewest_none t w en r later h]
    exact if_pos ⟨hc, ht⟩
  | cons y rest ih => simp only [List.cons_append, mergeNewest, ih]

section Sample
variable (st : StationNo) (w en r : Nat) (p : Part) (ts : List Task) (x : Posting) (hx : p.psu.posts[st] = x)
include hx

theorem mergeSample_none (h : ∀ y ∈ x.buffer, y.charge = true ∨ y.target ≠ x.target) :
    mergeSample st w en r ⟨p, ts⟩ = none := by
  subst hx
  simp only [mergeSample, mergeNewest_none _ w en r _ h]

/-- The sample forms an entry. -/
theorem postSample_forms (hb : x.buffer.length < 8)
    (h : p.psu.freeze = .thawed ∨ ∀ y ∈ x.buffer, y.charge = true ∨ y.target ≠ x.target) :
    postSample st w en r ⟨p, ts⟩ = ⟨formEntry st ⟨x.target, false, w, en, r, 0, 0⟩ p, ts⟩ := by
  have hnot : ¬Config.bufferPlaces ≤ p.psu.posts[st].buffer.length := by
    rw [hx]
    exact Nat.not_le.mpr hb
  simp only [postSample, hnot, if_false]
  by_cases hz : p.psu.freeze = .thawed
  · rw [if_pos hz, ← hx]
    rfl
  · rw [if_neg hz, mergeSample_none st w en r p ts x hx (h.resolve_left hz), ← hx]
    rfl

/-- The sample joins the newest USAGE entry with its target. -/
theorem postSample_merges (older later : List Entry) (newest : Entry) (u : Ntu)
    (hz : p.psu.freeze ≠ .thawed ∨ x.buffer.length = 8) (hb : x.buffer = older ++ newest :: later)
    (hc : newest.charge = false) (ht : newest.target = x.target)
    (hl : ∀ y ∈ later, y.charge = true ∨ y.target ≠ x.target)
    (hfull : (saturates newest.water w || saturates newest.energy en || saturates newest.run r) = true →
      p.ntu.outstanding = true ∧ u = joinNotice p.ntu .postSaturated (some st) (.job x.target.job))
    (hnot : ¬(saturates newest.water w || saturates newest.energy en || saturates newest.run r) = true → u = p.ntu) :
    postSample st w en r ⟨p, ts⟩ =
      ⟨{ p with
        psu := { p.psu with
          posts := p.psu.posts.set st { x with buffer := older ++ newest.takes w en r :: later } }
        ntu := u }, ts⟩ := by
  subst hx
  have hmerge : mergeSample st w en r ⟨p, ts⟩ = some
      ⟨{ p with
        psu := { p.psu with
          posts := p.psu.posts.set st { p.psu.posts[st] with buffer := older ++ newest.takes w en r :: later } }
        ntu := u }, ts⟩ := by
    simp only [mergeSample, hb, mergeNewest_newest _ w en r older later newest hc ht hl]
    rw [raise_if _ _ _ _ (Ev.map _ _) u hfull hnot]
    rfl
  simp only [postSample, hmerge]
  split
  · rfl
  · rename_i hlen
    have hthawed : ¬p.psu.freeze = .thawed := hz.resolve_right fun h8 => hlen (Nat.le_of_eq h8.symm)
    exact if_neg hthawed

/-- A full buffer without such an entry loses the sample. -/
theorem postSample_loses (hb : x.buffer.length = 8) (h : ∀ y ∈ x.buffer, y.charge = true ∨ y.target ≠ x.target)
    (hout : p.ntu.outstanding = true) :
    postSample st w en r ⟨p, ts⟩ =
      ⟨{ p with ntu := joinNotice p.ntu .postLost (some st) (.job x.target.job) }, ts⟩ := by
  have hmerge := mergeSample_none st w en r p ts x hx h
  subst hx
  have hfull : Config.bufferPlaces ≤ p.psu.posts[st].buffer.length := Nat.le_of_eq hb.symm
  simp only [postSample, hfull, if_true, hmerge]
  rw [raise_outstanding _ _ _ _ hout]
  rfl

end Sample

/-! ### The active order (R92, R141) -/

theorem countWater_debit_none (st : StationNo) (w : Nat) (p : Part) (h : p.cpl[st].active = none) :
    countWater st w (debit st w p) = p := by
  simp only [debit, h, countWater]
  refine upCpl_id p st _ ?_
  rw [h, Option.map_none, ← h]

theorem countWater_debit_active (st : StationNo) (w : Nat) (p : Part) (a : Active) (h : p.cpl[st].active = some a) :
    countWater st w (debit st w p) =
      { p with
        cpl := p.cpl.set st
          { p.cpl[st] with
            active := some
              { a with
                waterUsed := min 4294967295 (a.waterUsed + w)
                order := { a.order with remaining := a.order.remaining - min w a.order.remaining } } }
        wbu := { p.wbu with reserved := p.wbu.reserved - min w a.order.remaining } } := by
  simp only [debit, h, countWater, upCpl_eq_set, Part.upWbu, set_same, Vector.set_set, Option.map_some]
  rfl

/-- Settles O34. -/
theorem usageIsDebitedAndPosted : Obligations.UsageIsDebitedAndPosted := by
  rintro dst src w en run st s x debited fwd h hd hsrc hst hU hx rfl hdebited
  have hdebit : countWater st w.toNat (debit st w.toNat s.part) = debited := by
    rcases hdebited with ⟨ha, rfl⟩ | ⟨a, ha, rfl⟩
    · exact countWater_debit_none st w.toNat s.part ha
    · exact countWater_debit_active st w.toNat s.part a ha
  have hsame : debited.psu = s.part.psu ∧ debited.ntu = s.part.ntu ∧ debited.jau = s.part.jau ∧ debited.mgu = s.part.mgu
      ∧ debited.portU = s.part.portU ∧ debited.portD = s.part.portD := by
    rcases hdebited with ⟨-, rfl⟩ | ⟨a, -, rfl⟩ <;> exact ⟨rfl, rfl, rfl, rfl, rfl, rfl⟩
  obtain ⟨hpsu, hntu, hjau, hmgu, hportU, hportD⟩ := hsame
  have hpost : debited.psu.posts[st] = x := hpsu ▸ hx.symm
  have posts : ∀ q : Part, postSample st w.toNat en.toNat run.toNat ⟨debited, []⟩ = ⟨q, []⟩ → q.mgu = debited.mgu →
      q.portU = debited.portU → q.portD = debited.portD →
      exec (.usage dst src w en run) s = .next (s.withPart (q.sentU [⟨dst, src, 0x63, encodeUsage w en run⟩])) := by
    intro q hq hm hqU hqD
    refine saw_at_once dst src st s h hd hsrc ⟨dst, src, 0x63, encodeUsage w en run⟩
      (fun st => takeUsage st w.toNat en.toNat run.toNat) q ⟨rfl, rfl⟩ hst hU ?_ (hm.trans hmgu) (hqU.trans hportU)
      (congrArg PortState.waiting (hqD.trans hportD))
    refine Eq.trans ?_ hq
    rw [← hdebit]
    rfl
  refine ⟨fun hb hz => ?_, fun older newest later hz hb hc ht hl full u hfull hu hnot => ?_, fun hb hno hout => ?_⟩
  · refine posts _ ((postSample_forms st _ _ _ debited [] x hpost hb (by rw [hpsu]; exact hz)).trans ?_) rfl rfl rfl
    rw [formEntry_eq st _ debited x hpost, hpsu, hjau]
  · have hsat : (saturates newest.water w.toNat || saturates newest.energy en.toNat || saturates newest.run run.toNat) = true
        ↔ full := by
      rw [hfull]
      simp only [saturates, Bool.or_eq_true, Bool.and_eq_true, decide_eq_true_iff, or_assoc]
      rfl
    refine posts _ ((postSample_merges st _ _ _ debited [] x hpost older later newest u (by rw [hpsu]; exact hz) hb hc ht hl
      (fun hf => by rw [hntu]; exact hu (hsat.mp hf)) fun hf => by rw [hntu]; exact hnot fun hfl => hf (hsat.mpr hfl)).trans
      ?_) rfl rfl rfl
    rw [hpsu]
    rfl
  · refine posts _ ((postSample_loses st _ _ _ debited [] x hpost hb hno (by rw [hntu]; exact hout)).trans ?_) rfl rfl rfl
    rw [hntu]

end Sys2Proof.Machine
end

section
/-! PROOF. Requests that come while one is in progress (R12, R13), and malformed ones (R14). -/

namespace Sys2Proof.Machine

/-! ### A request in progress that stays so -/

theorem anyHold_of_holdOf (q : PortState) (st : StationNo) (h : q.anyWaits (Waiter.isHoldOf st) = true) :
    q.anyWaits Waiter.isAnyHold = true := by
  simp only [PortState.anyWaits, List.any_eq_true] at h ⊢
  obtain ⟨w, hw, hst⟩ := h
  refine ⟨w, hw, ?_⟩
  cases hwho : w.who <;> rw [hwho] at hst <;> first | rfl | cases hst

/-- A line reset is not complete while a drain, a station or a record is outstanding (R17, R194). -/
theorem resetPartsDone_not (p : Part) (draining : List StationNo)
    (h : draining ≠ [] ∨ (∃ st : StationNo, p.stc[st].state ≠ .service)
      ∨ ∃ st : StationNo, p.portU.anyWaits (Waiter.isHoldOf st) = true) : resetPartsDone p draining = false := by
  rw [Bool.eq_false_iff]
  intro hdone
  simp only [resetPartsDone, Bool.and_eq_true, List.isEmpty_iff, allInService, List.all_eq_true, decide_eq_true_eq,
    resetFramesEntered, Bool.not_eq_true'] at hdone
  obtain ⟨⟨hdrained, hservice⟩, ⟨hhold, -⟩, -⟩ := hdone
  rcases h with h | ⟨st, hst⟩ | ⟨st, hst⟩
  · exact h hdrained
  · exact hst (hservice st (mem_allStations st))
  · rw [anyHold_of_holdOf _ st hst] at hhold
    cases hhold

theorem finish_stays (n : Nat) (p : Part) (r : InProgress) (hi : p.mgu.inProgress = some r)
    (hs : StaysInProgress p r.phase) : finish n ⟨p, []⟩ = ⟨p, []⟩ := by
  cases n with
  | zero => rfl
  | succ n =>
    cases hr : r.phase with
    | answering => exact finish_answering _ ⟨p, []⟩ r rfl hi hr
    | freezing =>
      rw [hr] at hs
      obtain ⟨st, hd⟩ := hs
      exact finish_waits n p r st hi hr hd
    | resetting draining =>
      rw [hr] at hs
      have hfreeze : freezeCheck ⟨p, []⟩ = ⟨p, []⟩ := by simp [freezeCheck, hi, hr]
      have hreset : lineResetCheck ⟨p, []⟩ = ⟨p, []⟩ := by
        simp only [lineResetCheck, hi, hr, resetPartsDone_not p draining hs, Bool.false_eq_true, if_false]
      simp only [finish, settle_done, hfreeze, hreset, takeRequest, hi]
    | attending =>
      rw [hr] at hs
      have hwaits : p.portU.anyWaits Waiter.isAttention = true := hs
      have hfreeze : freezeCheck ⟨p, []⟩ = ⟨p, []⟩ := by simp [freezeCheck, hi, hr]
      have hreset : lineResetCheck ⟨p, []⟩ = ⟨p, []⟩ := by simp only [lineResetCheck, hi, hr, hwaits, if_true]
      simp only [finish, settle_done, hfreeze, hreset, takeRequest, hi]

theorem anyWaits_mono (p q : PortState) (what : Waiter → Bool) (hw : ∀ w ∈ p.waiting, w ∈ q.waiting)
    (h : p.anyWaits what = true) : q.anyWaits what = true := by
  simp only [PortState.anyWaits, List.any_eq_true] at h ⊢
  obtain ⟨w, hm, hx⟩ := h
  exact ⟨w, hw w hm, hx⟩

theorem staysInProgress_mono (p q : Part) (phase : Phase) (hpsu : q.psu = p.psu) (hstc : q.stc = p.stc)
    (hw : ∀ w ∈ p.portU.waiting, w ∈ q.portU.waiting) (h : StaysInProgress p phase) : StaysInProgress q phase := by
  cases phase with
  | answering => trivial
  | freezing =>
    obtain ⟨st, hd⟩ := h
    exact ⟨st, hpsu ▸ hd⟩
  | resetting draining =>
    refine h.imp_right (Or.imp ?_ ?_)
    · rintro ⟨st, hs⟩
      exact ⟨st, hstc ▸ hs⟩
    · rintro ⟨st, hs⟩
      exact ⟨st, anyWaits_mono _ _ _ hw hs⟩
  | attending => exact anyWaits_mono p.portU q.portU _ hw h

/-! ### The group of a frame that begins to wait (R11) -/

theorem nextGroup_append (ws : List Waiting) (who : Waiter) : nextGroup (ws ++ [⟨who, none⟩]) = nextGroup ws := by
  simp only [nextGroup, List.foldl_append, List.foldl, Option.getD_none, Nat.max_zero]

theorem closeGroup_joined (q : PortState) (who : Waiter) (h : ∀ w ∈ q.waiting, w.group ≠ none) :
    PortState.closeGroup { q with waiting := q.waiting ++ [⟨who, none⟩] } =
      { q with waiting := q.waiting ++ [⟨who, some (nextGroup q.waiting)⟩] } := by
  have hkept : q.waiting.map (fun w => { w with group := some (w.group.getD (nextGroup q.waiting)) }) = q.waiting :=
    congrArg PortState.waiting (closeGroup_grouped q h)
  simp only [PortState.closeGroup, nextGroup_append, List.map_append, List.map_singleton, hkept, Option.getD_none]

/-- A request that comes while another stays in progress: its event is its own change and the groups. -/
theorem request_waits (r : Request) (s : State) (i : InProgress) (q q' : Part) (hreset : s.part.inReset = false)
    (hrec : s.part.portU.received = []) (hi : s.part.mgu.inProgress = some i) (hs : StaysInProgress s.part i.phase)
    (hq : handRequest r ⟨s.part, []⟩ = ⟨q, []⟩) (hmgu : q.mgu.inProgress = s.part.mgu.inProgress)
    (hpsu : q.psu = s.part.psu) (hstc : q.stc = s.part.stc) (hw : ∀ w ∈ s.part.portU.waiting, w ∈ q.portU.waiting)
    (hclose : closeGroups q = q') : request r s = .next (s.withPart q') := by
  have hevent : event (handRequest r) s.part = q' := by
    simp only [event, hq]
    rw [finish_stays _ q i (hmgu.trans hi) (staysInProgress_mono s.part q i.phase hpsu hstc hw hs)]
    exact hclose
  refine (live_released s _ hreset).trans ?_
  rw [handAll_none .U s.part hrec, hevent]

theorem malformed_answered (r : Request) (s : State) (hr : r.body = .malformed) (h : Quiet s.part)
    (hroom : RoomU 1 s.part) : request r s = .next (s.answer s.part r.code r.tag .badValue []) := by
  obtain ⟨code, tag, body⟩ := r
  obtain rfl : body = .malformed := hr
  exact request_report ⟨code, tag, .malformed⟩ s .badValue [] h hroom rfl

/-- Settles O12. -/
theorem requestsQueueOrAreAnsweredAtOnce : Obligations.RequestsQueueOrAreAnsweredAtOnce := by
  refine ⟨fun payload s i hreset hrec hi hs hgrouped => ?_, fun s h hroom => ⟨?_, fun code => ?_, fun code tag args hargs => ?_⟩⟩
  · have waits := fun q q' => request_waits (decodeRequest payload) s i q q' hreset hrec hi hs
    have hfull : s.part.mgu.queue.length = 4 → handRequest (decodeRequest payload) ⟨s.part, []⟩ =
        busyAnswer (decodeRequest payload) ⟨s.part, []⟩ := by
      intro hlen
      exact if_neg (Nat.not_lt.mpr (Nat.le_of_eq hlen.symm))
    refine ⟨fun hlen => ?_, fun hlen hbusy hroom => ?_, fun hlen hbusy hroom => ?_, fun hlen hbusy => ?_⟩
    · exact waits _ _ (if_pos hlen) rfl rfl rfl (fun w hw => hw) (closeGroups_grouped _ hgrouped.1 hgrouped.2)
    · refine waits (s.part.sentU [answerFrame (decodeRequest payload).code (decodeRequest payload).tag .busy []]) _ ?_ rfl rfl
        rfl (fun w hw => hw) (closeGroups_grouped _ hgrouped.1 hgrouped.2)
      rw [hfull hlen]
      simp only [busyAnswer, hbusy, Bool.false_eq_true, if_false]
      refine (offer_U (.busy _) ⟨s.part, []⟩ rfl hroom).trans rfl
    · have hno : hasRoom s.part.portU = false := decide_eq_false (Nat.not_lt.mpr hroom)
      let who : Waiter := .busy (answerFrame (decodeRequest payload).code (decodeRequest payload).tag .busy [])
      refine waits { s.part with portU := { s.part.portU with waiting := s.part.portU.waiting ++ [⟨who, none⟩] } } _ ?_
        rfl rfl rfl (fun w hw => List.mem_append_left _ hw) ?_
      · rw [hfull hlen]
        simp only [busyAnswer, hbusy, Bool.false_eq_true, if_false, offer, Waiter.port, Part.port, hno]
        rfl
      · have hD : s.part.portD.closeGroup = s.part.portD := closeGroup_grouped _ hgrouped.2
        simp only [closeGroups, closeGroup_joined _ who hgrouped.1, hD, who]
    · refine waits (countDrop .U s.part) _ ?_ rfl rfl rfl (fun w hw => hw) ?_
      · rw [hfull hlen]
        simp only [busyAnswer, hbusy, if_true, Ev.map]
      · refine (closeGroups_grouped (countDrop .U s.part) hgrouped.1 hgrouped.2).trans ?_
        rw [countDrop_eq]
        rfl
  · exact malformed_answered ⟨0, 0, .malformed⟩ s rfl h hroom
  · exact malformed_answered ⟨code, 0, .malformed⟩ s rfl h hroom
  · have hbody : decodeRequest (code :: tag :: args) = ⟨code, tag, .malformed⟩ := by
      simp only [decodeRequest, hargs, Option.getD_none]
    refine (if_pos (congrArg Request.body hbody)).trans ?_
    rw [hbody]
    exact malformed_answered ⟨code, tag, .malformed⟩ s rfl h hroom

end Sys2Proof.Machine
end

section
/-! PROOF. The entry of a waiting frame at the freed entry of its port's queue, and what it sets off (R9, R11). -/

namespace Sys2Proof.Machine

/-- An event to its last examination, with no request under way at its end. -/
theorem event_ends (f : Ev → Ev) (p q : Part) (n : Nat) (hs : Settles n (f ⟨p, []⟩) q) (hn : n ≤ Config.eventFuel)
    (hi : q.mgu.inProgress = none) (hq : q.mgu.queue = []) (hU : q.portU.waiting = []) (hD : q.portD.waiting = []) :
    event f p = q := by
  simp only [event, Config.requestFuel]
  rw [finish_settles n _ _ q hs hn hi hq]
  exact closeGroups_none_waiting _ hU hD

/-! ### The only waiting frame (R11) -/

/-- The part once the frame being sent has left its entry, and the only waiting frame its line. -/
def freed (x : Port) (p : Part) : Part :=
  p.upPort x fun q => { q with queue := q.queue.drop 1, sending := false, waiting := [] }

section Alone
variable (x : Port) (p : Part) (w : Waiter) (g : Nat) (hw : (p.port x).waiting = [⟨w, some g⟩])
include hw

theorem candidates_alone : candidates (p.port x) = [w] := by
  rw [candidates, hw]
  simp only [firstGroup, List.takeWhile, decide_true, List.map_cons, List.map_nil, eligible, List.any_nil,
    Bool.false_eq_true, if_false]

theorem takeWaiter_alone : takeWaiter x w (popSent x p) = freed x p := by
  have hline : (p.port x).waiting.eraseP (fun y => decide (y.who = w)) = [] := by
    rw [hw]
    simp only [List.eraseP_cons, decide_true, cond_true]
  cases x with
  | U => exact congrArg (fun v => { p with portU := { p.portU with
      queue := p.portU.queue.drop 1, sending := false, waiting := v } }) hline
  | D => exact congrArg (fun v => { p with portD := { p.portD with
      queue := p.portD.queue.drop 1, sending := false, waiting := v } }) hline

variable (hlen : (p.port x).queue.length = 16) (hs : (p.port x).sending = true)
include hlen hs

theorem waiterEnters_alone (what : Waiter → Bool) (hwhat : what w = true) (q : Part)
    (h : event (fun e => enter w (e.map (freed x))) p = q) : waiterEnters x what p = q := by
  have hno : hasRoom (p.port x) = false := decide_eq_false (by rw [hlen]; decide)
  have hfound : (candidates (p.port x)).find? what = some w := by
    rw [candidates_alone x p w g hw, List.find?_cons, hwhat]
  simp only [waiterEnters, hfound, hno, Bool.false_eq_true, if_false, hs, if_true]
  rw [← h]
  simp only [event, Ev.map, takeWaiter_alone x p w g hw]

theorem someEnters_alone (hreset : p.inReset = false) (q : Part)
    (h : event (fun e => enter w (e.map (freed x))) p = q) : someEnters x p = q := by
  have hno : hasRoom (p.port x) = false := decide_eq_false (by rw [hlen]; decide)
  have hpop : ((popSent x p).port x).waiting = [⟨w, some g⟩] := by
    cases x <;> exact hw
  have hadmit : admitOne x ⟨popSent x p, []⟩ = enter w ⟨freed x p, []⟩ := by
    simp only [admitOne, candidates_alone x (popSent x p) w g hpop, Ev.map, takeWaiter_alone x p w g hw]
  simp only [someEnters, candidates_alone x p w g hw, List.isEmpty_cons, Bool.false_eq_true, if_false, hno, frameIsSent, hs,
    if_true, hreset]
  rw [← h]
  simp only [event, Ev.map, hadmit]

end Alone

/-! ### What the entry sets off -/

/-- R85: the only frame of a frame list enters and leaves the list. -/
theorem pumpAll_one (st : StationNo) (p : Part) (ts : List Task) (f : SawFrame) (hf : p.cpl[st].frames = [f])
    (hr : p.portD.queue.length < 16) : pumpAll st ⟨p, ts⟩ =
      sawEntered st f ⟨Part.sentD { p with cpl := p.cpl.set st { p.cpl[st] with frames := [] } } [f.frame], ts⟩ := by
  have hroom : hasRoom p.portD = true := hasRoom_of_lt _ hr
  simp only [pumpAll, hf, List.length_singleton, pump, hroom, if_true, Ev.map, push_D, upCpl_eq_set]

theorem holdEntered_station (st : StationNo) (p : Part) (ts : List Task) (hw : p.portU.waiting = []) :
    holdEntered st false ⟨p, ts⟩ = ⟨p, ts ++ [.station st]⟩ := by
  have hempty : recordHoldEmpty p st = true := by
    simp only [recordHoldEmpty, PortState.anyWaits, hw, List.any_nil, Bool.not_false]
  exact if_pos hempty

/-- R41: the only order of a ring is spent and its record enters: CPL passes its slot. -/
theorem slotEntered_passes (st : StationNo) (p : Part) (r : Ring) (x : OrderRec) (outcome : CutOutcome)
    (hr : p.oqu[st] = r) (hone : r.producer = r.consumer + 1) (hx : r.slots[r.consumer] = some x)
    (hs : x.state = .closed outcome) (hd : p.cpl[st].onDeck = none) :
    Settles 1 (slotEntered st r.consumer ⟨p, []⟩)
      { p with
        oqu := p.oqu.set st { r with slots := r.slots.set r.consumer none, consumer := r.consumer + 1 } } := by
  subst hr
  let r1 : Ring := { p.oqu[st] with
    slots := p.oqu[st].slots.set p.oqu[st].consumer (some { x with entered := true }) }
  have hentered : slotEntered st p.oqu[st].consumer ⟨p, []⟩ = ⟨{ p with oqu := p.oqu.set st r1 }, [.station st]⟩ := by
    simp only [slotEntered, Ev.map, upRing_eq_set, upOrder_eq p.oqu[st] p.oqu[st].consumer x _ hx]
    rfl
  have hclosed : ({ x with entered := true } : OrderRec).isOpen = false := by simp only [OrderRec.isOpen, hs]
  have hpass := passSpent_one r1 { x with entered := true } hone (set_same p.oqu[st].slots p.oqu[st].consumer _) hclosed rfl
    15
  have hring : ({ p with oqu := p.oqu.set st r1 } : Part).oqu[st] = r1 := set_same p.oqu st r1
  rw [hentered]
  refine settles_examined 0 st _ _ _ [] (examineStation_passes st _ [] _ ((congrArg (Ring.passSpent · 16) hring).trans hpass)
    (headAdmitted_empty _ hone) hd) (settles_eq 0 _ _ ?_)
  simp only [r1, Vector.set_set]

theorem settles_nothingDue (st : StationNo) (q : Part) (h : NoneDue q st) : Settles 1 ⟨q, [.station st]⟩ q :=
  settles_examined 0 st q q _ [] (examineStation_none st ⟨q, []⟩ h) (settles_done q)

/-- Settles O11. -/
theorem waitingFramesEnterAndTakeEffect : Obligations.WaitingFramesEnterAndTakeEffect := by
  intro s g f st c afterD afterU hreset hqueue hc hafterD hafterU
  subst hc
  refine ⟨fun hi hU hlen hsend => ?_, fun hD hlen hsend => ⟨fun hi => ?_, fun code tag hi => ?_⟩⟩
  · have hroom : (freed .D s.part).portD.queue.length < 16 := by
      simp only [freed, Part.upPort, List.length_drop, hlen]
      decide
    have enters : ∀ (w : Waiter) (what : Waiter → Bool) (q : Part), s.part.portD.waiting = [⟨w, some g⟩] → what w = true →
        enter w ⟨freed .D s.part, []⟩ = ⟨q, []⟩ → q.mgu = s.part.mgu → q.portU = s.part.portU → q.portD.waiting = [] →
        waiterEnters .D what s.part = q := by
      intro w what q hw hwhat hq hm hqU hqD
      refine waiterEnters_alone .D s.part w g hw hlen hsend what hwhat q
        (event_ends _ s.part q 0 ?_ (by decide) (hm ▸ hi) (hm ▸ hqueue) (hqU ▸ hU) hqD)
      exact (congrArg (Settles 0 · q) hq).mpr (settles_done q)
    have enter_saw : ∀ frame : SawFrame, s.part.cpl[st].frames = [frame] → frame.frame = f →
        enter (.saw st) ⟨freed .D s.part, []⟩ = sawEntered st frame
          ⟨{ afterD with cpl := s.part.cpl.set st { s.part.cpl[st] with frames := [] } }, []⟩ := by
      intro frame hf hfr
      rw [hafterD, ← hfr]
      exact pumpAll_one st (freed .D s.part) [] frame hf hroom
    have hpipe := set_same s.part.cpl st { s.part.cpl[st] with frames := [] }
    refine ⟨fun kind number ms hk hf hw hs hb ho => ?_, fun a ha hstop hf hw => ?_, fun hw => ?_, fun hw => ?_⟩
    · have hfront : frontIs s.part st SawFrame.isProgram = true := by
        rcases hk with rfl | rfl <;> simp only [frontIs, hf, List.head?_cons, Option.any_some, SawFrame.isProgram]
      have hprogram : ∀ e, sawEntered st ⟨kind, number, f⟩ e = programEntered st e := by
        rcases hk with rfl | rfl <;> exact fun e => rfl
      have hruns := programEntered_runs st { afterD with cpl := s.part.cpl.set st { s.part.cpl[st] with frames := [] } } []
        ms (by rw [hafterD]; exact hs) (by rw [hafterD]; exact hb) ((congrArg Pipeline.overrun hpipe).trans ho)
      refine (live_released s _ hreset).trans (congrArg (fun p => Host.Outcome.next (s.withPart p)) ((if_pos hfront).trans
        (enters (.saw st) _ _ hw (by simp [Waiter.isSawOf]) ?_ (by rw [hafterD]) (by rw [hafterD]) (by rw [hafterD]))))
      rw [enter_saw _ hf rfl, hprogram, hruns]
      simp only [hpipe, Vector.set_set]
    · have hfront : frontIs s.part st (fun f => decide (f.kind = .stop)) = true := by
        simp only [frontIs, hf, List.head?_cons, Option.any_some, decide_true]
      have hloads := stopEntered_loads st ⟨.stop, some a.ticket, f⟩
        { afterD with cpl := s.part.cpl.set st { s.part.cpl[st] with frames := [] } } a
        ((congrArg Pipeline.active hpipe).trans ha) (Option.isSome_iff_ne_none.mpr hstop) rfl
      refine (live_released s _ hreset).trans (congrArg (fun p => Host.Outcome.next (s.withPart p)) ((if_pos hfront).trans
        (enters (.saw st) _ _ hw (by simp [Waiter.isSawOf]) ?_ (by rw [hafterD]) (by rw [hafterD]) (by rw [hafterD]))))
      rw [enter_saw _ hf rfl]
      simp only [sawEntered, Ev.map, hloads, upCpl_eq_set, hpipe, Vector.set_set]
      rw [hafterD]
    · refine (live_released s _ hreset).trans (congrArg (fun p => Host.Outcome.next (s.withPart p))
        (enters (.valve true f) _ _ hw rfl ?_ (by rw [hafterD]) (by rw [hafterD]) (by rw [hafterD])))
      rw [hafterD]
      rfl
    · refine (live_released s _ hreset).trans (congrArg (fun p => Host.Outcome.next (s.withPart p)) ?_)
      have hends : ∀ w : Waiter, enter w ⟨freed .D s.part, []⟩ = ⟨afterD, []⟩ → s.part.portD.waiting = [⟨w, some g⟩] →
          someEnters .D s.part = afterD := by
        intro w hq hw
        refine someEnters_alone .D s.part w g hw hlen hsend hreset afterD
          (event_ends _ s.part afterD 0 ?_ (by decide) (by rw [hafterD]; exact hi) (by rw [hafterD]; exact hqueue)
            (by rw [hafterD]; exact hU) (by rw [hafterD]))
        exact (congrArg (Settles 0 · afterD) hq).mpr (settles_done afterD)
      rcases hw with hw | hw
      · exact hends _ (by rw [hafterD]; rfl) hw
      · exact hends _ (by rw [hafterD]; rfl) hw
  · have enters : ∀ (w : Waiter) (q : Part), Settles 1 (enter w ⟨freed .U s.part, []⟩) q → q.mgu = s.part.mgu →
        q.portU.waiting = [] → q.portD = s.part.portD → event (fun e => enter w (e.map (freed .U))) s.part = q :=
      fun w q hq hm hqU hqD => event_ends _ s.part q 1 hq (by decide) (hm ▸ hi) (hm ▸ hqueue) hqU (hqD ▸ hD)
    have hlives : ∀ (act : Part → Part) (q : Part), act s.part = q → live s act = .next (s.withPart q) := by
      rintro act q rfl
      exact live_released s act hreset
    have only : ∀ w : Waiter, enter w ⟨freed .U s.part, []⟩ = ⟨afterU, []⟩ →
        event (fun e => enter w (e.map (freed .U))) s.part = afterU := by
      intro w hq
      refine enters w afterU ?_ (by rw [hafterU]) (by rw [hafterU]) (by rw [hafterU])
      exact (congrArg (Settles 1 · afterU) hq).mpr (settles_at_once 1 afterU)
    have examines : ∀ w : Waiter, enter w ⟨freed .U s.part, []⟩ = ⟨afterU, [.station st]⟩ → NoneDue s.part st →
        event (fun e => enter w (e.map (freed .U))) s.part = afterU := by
      intro w hq hdue
      refine enters w afterU ?_ (by rw [hafterU]) (by rw [hafterU]) (by rw [hafterU])
      exact (congrArg (Settles 1 · afterU) hq).mpr (settles_nothingDue st afterU (by rw [hafterU]; exact hdue))
    refine ⟨fun hw hdue => ?_, fun outcome hw hdue => ?_, fun x outcome hw hone hx hxs hdeck => ?_, fun hw => ?_, fun hw => ?_⟩
    · refine hlives _ _ (waiterEnters_alone .U s.part _ g hw hlen hsend _ (by simp [Waiter.isHoldOf]) afterU
        (examines _ ?_ hdue))
      rw [hafterU]
      exact holdEntered_station st ((freed .U s.part).sentU [f]) [] rfl
    · refine hlives _ _ (waiterEnters_alone .U s.part _ g hw hlen hsend _ (by simp [Waiter.isPlaceOf]) afterU
        (examines _ ?_ hdue))
      rw [hafterU]
      rfl
    · refine hlives _ _ (waiterEnters_alone .U s.part _ g hw hlen hsend _ (by simp [Waiter.isSpentOf]) _
        (enters _ _ ?_ (by rw [hafterU]) (by rw [hafterU]) (by rw [hafterU])))
      rw [hafterU]
      exact slotEntered_passes st ((freed .U s.part).sentU [f]) s.part.oqu[st] x outcome rfl hone hx hxs hdeck
    · refine hlives _ _ (waiterEnters_alone .U s.part _ g hw hlen hsend _ rfl afterU (only (.attention f) ?_))
      rw [hafterU]
      rfl
    · have hsome : ∀ w : Waiter, enter w ⟨freed .U s.part, []⟩ = ⟨(freed .U s.part).sentU [f], []⟩ →
          s.part.portU.waiting = [⟨w, some g⟩] → someEnters .U s.part = afterU := by
        intro w hq hw
        refine someEnters_alone .U s.part w g hw hlen hsend hreset afterU (only w (hq.trans ?_))
        rw [hafterU]
        rfl
      refine hlives _ _ ?_
      rcases hw with hw | hw | hw | hw
      · exact hsome _ rfl hw
      · exact hsome _ rfl hw
      · exact hsome _ rfl hw
      · exact hsome _ rfl hw
  · refine ⟨fun hw => ?_, fun second hw => ?_⟩
    · refine (live_released s _ hreset).trans (congrArg (fun p => Host.Outcome.next (s.withPart p))
        (waiterEnters_alone .U s.part _ g hw hlen hsend _ rfl _ (event_ends _ s.part _ 0 ?_ (by decide) rfl hqueue
          (by rw [hafterU]) (by rw [hafterU]; exact hD))))
      rw [hafterU]
      exact settles_done _
    · let q : Part := { afterU with portU := { afterU.portU with waiting := [⟨.manageAnswer none second, none⟩] } }
      have hfull : hasRoom ((freed .U s.part).sentU [f]).portU = false := by
        refine decide_eq_false ?_
        simp only [Part.sentU, freed, Part.upPort, List.length_append, List.length_drop, hlen, List.length_singleton]
        decide
      have hjoins : enter (.manageAnswer (some second) f) ⟨freed .U s.part, []⟩ = ⟨q, []⟩ := by
        simp only [enter, answerEntered, Ev.map, push_U, hfull, Bool.false_eq_true, if_false, q, hafterU]
        rfl
      refine (live_released s _ hreset).trans (congrArg (fun p => Host.Outcome.next (s.withPart p))
        (waiterEnters_alone .U s.part _ g hw hlen hsend _ rfl _ ?_))
      simp only [event]
      rw [show (Ev.map ⟨s.part, []⟩ (freed .U)) = ⟨freed .U s.part, []⟩ from rfl, hjoins,
        finish_answering _ ⟨q, []⟩ ⟨code, tag, .answering⟩ rfl (by simp only [q, hafterU]; exact hi) rfl]
      have hgroup := closeGroup_joined { afterU.portU with waiting := [] } (.manageAnswer none second) (by simp)
      have hkept : q.portD.closeGroup = q.portD := closeGroup_grouped _ (by
        simp only [q, hafterU, hD]
        simp)
      simp only [closeGroups, hkept]
      rw [show q.portU.closeGroup = _ from hgroup]
      rfl

end Sys2Proof.Machine
end

section
/-! PROOF. LINE RESET: its beginning in every block (R17, R19, R39, R150, R165), the stations it finds at rest, and its
completion (R17, R194). -/

namespace Sys2Proof.Machine

/-! ### The beginning -/

/-- The part as a line reset begins, with these contexts and buffers. -/
def begunPart (p : Part) (stc : Vector StationCtx 8) (posts : Vector Posting 8) : Part :=
  { p with
    portD := { p.portD with received := [], dropped := min 65535 (p.portD.dropped + p.portD.received.length) }
    stc := stc
    wbu := { p.wbu with waitList := Vector.replicate 8 none }
    psu := { p.psu with
      posts := posts
      freeze := if p.psu.freeze = .frozen then .thawed else p.psu.freeze
      freezeTimer := if p.psu.freeze = .frozen then .stopped else p.psu.freezeTimer } }

theorem foldl_updAt {α : Type} {n : Nat} (f : Fin n → α → α) (l : List (Fin n)) (v : Vector α n) (hl : l.Nodup)
    (j : Fin n) : (l.foldl (fun w i => upd w i (f i)) v)[j] = if j ∈ l then f j v[j] else v[j] := by
  induction l generalizing v with
  | nil => simp
  | cons i l ih =>
    obtain ⟨hi, hl⟩ := List.nodup_cons.mp hl
    simp only [List.foldl, ih _ hl, List.mem_cons]
    by_cases h : i = j
    · subst h
      simp only [hi, or_false, if_true, if_false, upd_same]
    · have h' : ¬j = i := fun e => h e.symm
      simp only [h', false_or, upd_other _ _ _ _ h]

/-- R39: the contexts as a line reset begins. -/
def resetContexts (p : Part) : Vector StationCtx 8 :=
  Vector.ofFn fun y : StationNo => resetContext p.cpl[y].active.isSome p.stc[y]

theorem foldl_resetContext (p : Part) :
    (allStations.foldl (fun (q : Part) st => q.upStc st (resetContext q.cpl[st].active.isSome)) p) =
      { p with stc := resetContexts p } := by
  have hfold : ∀ (l : List StationNo) (q : Part),
      l.foldl (fun (q : Part) st => q.upStc st (resetContext q.cpl[st].active.isSome)) q =
        { q with stc := l.foldl (fun w st => upd w st (resetContext q.cpl[st].active.isSome)) q.stc } := by
    intro l
    induction l with
    | nil => exact fun q => rfl
    | cons st l ih =>
      intro q
      simp only [List.foldl, ih]
      rfl
  have hstc : allStations.foldl (fun w st => upd w st (resetContext p.cpl[st].active.isSome)) p.stc = resetContexts p := by
    refine Vector.ext fun i hi => ?_
    have hget := foldl_updAt (fun st : StationNo => resetContext p.cpl[st].active.isSome) allStations p.stc (by decide)
      ⟨i, hi⟩
    rw [if_pos (mem_allStations _)] at hget
    refine Eq.trans hget ?_
    simp only [resetContexts, Vector.getElem_ofFn]
  rw [hfold, hstc]

theorem dropReceived_none (q : PortState) (h : q.received = []) (hd : q.dropped ≤ 65535) : dropReceived q = q := by
  obtain ⟨receiver, dropped, received, queue, sending, waiting⟩ := q
  obtain rfl : received = [] := h
  have hmin : min 65535 dropped = dropped := Nat.min_eq_right hd
  simp only [dropReceived, List.length_nil, Nat.add_zero, hmin]

theorem resetBegins_eq (p : Part) (hU : p.portU.received = []) (hd : p.portU.dropped ≤ 65535) :
    resetBegins p = begunPart p (resetContexts p) (p.psu.posts.map Posting.coverAll) := by
  have hports : ∀ q : Part, q.cpl = p.cpl → q.stc = p.stc → resetContexts q = resetContexts p := by
    intro q hc hs
    simp only [resetContexts, hc, hs]
  simp only [resetBegins, foldl_resetContext, dropReceived_none p.portU hU hd, Part.upWbu]
  rw [hports _ rfl rfl]
  by_cases hz : p.psu.freeze = .frozen
  · simp only [hz, if_true, thaw, Part.upPsu, begunPart]
    rw [flushAll_eq _ (by simp)]
    rfl
  · simp only [hz, if_false, begunPart]
    rw [flushAll_eq _ (by exact hz)]
    rfl

/-! ### A station at rest -/

theorem flushStation_rest (st : StationNo) (outcome : CutOutcome) (lr : Bool) (e : Ev) (h : AtRest e.p st)
    (hw : e.p.wbu.waitList[st] = none) : flushStation st outcome lr e = e := by
  obtain ⟨he, hc, hd, -, -⟩ := h
  have hring : e.p.oqu.set st { e.p.oqu[st] with chains := [] } = e.p.oqu := by
    rw [← hc]
    exact Vector.set_getElem_self _
  have hwait : e.p.wbu.waitList.set st none = e.p.wbu.waitList := by
    rw [← hw]
    exact Vector.set_getElem_self _
  rw [show e = ⟨e.p, e.todo⟩ from rfl, flushStation_none st outcome lr e.p e.todo _ rfl he hd, hring, hwait]

theorem resetStation_rest (st : StationNo) (e : Ev) (h : AtRest e.p st) (hw : e.p.wbu.waitList[st] = none) :
    resetStation st e = e := by
  have hactive := h.2.2.2.1
  simp only [resetStation, hactive]
  exact flushStation_rest st .lineReset true e h hw

/-- A fold in which one element alone acts. -/
theorem foldl_only {α β : Type} (f : α → β → α) (l : List β) (a b : α) (x : β) (hx : x ∈ l) (hl : l.Nodup)
    (hact : f a x = b) (hbefore : ∀ y, y ≠ x → f a y = a) (hafter : ∀ y, y ≠ x → f b y = b) : l.foldl f a = b := by
  induction l with
  | nil => cases hx
  | cons y l ih =>
    obtain ⟨hy, hl⟩ := List.nodup_cons.mp hl
    simp only [List.foldl]
    by_cases h : y = x
    · subst h
      rw [hact]
      exact foldl_id _ _ _ fun z hz => hafter z fun e => hy (e ▸ hz)
    · rw [hbefore y h]
      exact ih ((List.mem_cons.mp hx).resolve_left (Ne.symm h)) hl

/-! ### Completion -/

/-- Every station is in SERVICE, with nothing on its frame list and every slot of its ring free. -/
def AllAtRest (p : Part) : Prop :=
  ∀ st : StationNo, p.stc[st].state = .service ∧ p.cpl[st].frames = [] ∧ ∀ i : SlotNo, p.oqu[st].slots[i] = none

theorem resetPartsDone_rest (p : Part) (hw : p.portU.waiting = []) (h : AllAtRest p) : resetPartsDone p [] = true := by
  have hservice : allInService p = true := by
    simp only [allInService, List.all_eq_true, decide_eq_true_eq]
    exact fun st _ => (h st).1
  have hslots : ∀ st : StationNo, resetRecordWaits p.oqu[st] = false := by
    intro st
    rw [Bool.eq_false_iff]
    intro hwaits
    simp only [resetRecordWaits, List.any_eq_true, Vector.mem_toList_iff] at hwaits
    obtain ⟨o, ho, hany⟩ := hwaits
    obtain ⟨i, hi, hget⟩ := Vector.mem_iff_getElem.mp ho
    rw [← hget, show p.oqu[st].slots[i] = none from (h st).2.2 ⟨i, hi⟩] at hany
    cases hany
  have hframes : resetFramesEntered p = true := by
    simp only [resetFramesEntered, PortState.anyWaits, hw, List.any_nil, Bool.not_false, Bool.true_and, List.all_eq_true]
    intro st _
    simp only [stopWaits, (h st).2.1, List.any_nil, hslots st, Bool.not_false, Bool.and_self]
  simp only [resetPartsDone, List.isEmpty_nil, hservice, hframes, Bool.and_self]

/-- R17, R194: with every part done the line reset is answered in the event. -/
theorem finish_resets (k n : Nat) (e : Ev) (p : Part) (code tag : Byte) (hs : Settles k e p) (hk : k ≤ Config.eventFuel)
    (hi : p.mgu.inProgress = some ⟨code, tag, .resetting []⟩) (hq : p.mgu.queue = []) (hout : p.ntu.outstanding = true)
    (hw : p.portU.waiting = []) (hroom : p.portU.queue.length < 16) (hrest : AllAtRest p) :
    finish (n + 1) e = ⟨Part.sentU
      { p with
        mgu := { p.mgu with inProgress := none }
        ntu := joinNotice p.ntu .lineResetDone none .none } [answerFrame code tag .done []], []⟩ := by
  let q : Part := Part.sentU
    { p with
      mgu := { p.mgu with inProgress := none }
      ntu := joinNotice p.ntu .lineResetDone none .none } [answerFrame code tag .done []]
  have hfreeze : freezeCheck ⟨p, []⟩ = ⟨p, []⟩ := by
    simp only [freezeCheck, hi, reduceCtorEq, false_and, if_false]
  have hanswer : answerLineReset ⟨code, tag, .resetting []⟩
      ⟨{ p with ntu := joinNotice p.ntu .lineResetDone none .none }, []⟩ = ⟨q, []⟩ := by
    simp only [answerLineReset, sendReply, plain, Ev.map]
    rw [offer_U _ _ rfl (by exact hroom)]
    simp only [enter, answerEntered, Ev.map, answered, setPhase, Part.upMgu, hi]
    rfl
  have hcheck : lineResetCheck ⟨p, []⟩ = ⟨q, []⟩ := by
    simp only [lineResetCheck, hi, resetPartsDone_rest p hw hrest, if_true, hout, Bool.not_true, Bool.false_and,
      Bool.false_eq_true, if_false]
    rw [raise_outstanding _ _ _ _ (by exact hout)]
    exact hanswer
  have htake : takeRequest ⟨q, []⟩ = none := takeRequest_none ⟨q, []⟩ rfl hq
  simp only [finish, hs _ hk, hfreeze, hcheck, htake, q]

/-! ### The event of the LINE RESET -/

/-- A request with none in progress is taken in its event, whatever port D has received. -/
theorem request_taken (r : Request) (s : State) (q : Part) (hreset : s.part.inReset = false)
    (hq : s.part.mgu.queue = []) (hi : s.part.mgu.inProgress = none) (hrec : s.part.portU.received = [])
    (h : finish 15 (carryOut r ⟨s.part.answering r, []⟩) = ⟨q, []⟩) (hU : q.portU.waiting = [])
    (hD : q.portD.waiting = []) : request r s = .next (s.withPart q) := by
  have hevent : event (handRequest r) s.part = closeGroups (finish 15 (carryOut r ⟨s.part.answering r, []⟩)).p := by
    simp [event, handRequest, hq, Config.requestPlaces, Config.requestFuel, finish, settle_done, freezeCheck_none,
      lineResetCheck_none, takeRequest, hi, Ev.map, Part.upMgu, Part.answering]
  refine (live_released s _ hreset).trans ?_
  rw [handAll_none .U s.part hrec, hevent, h, closeGroups_none_waiting q hU hD]

/-- What a LINE RESET finds at every station but one. -/
structure RestsBut (p : Part) (st : StationNo) : Prop where
  quiet : Quiet { p with portD := { p.portD with received := [] } }
  outstanding : p.ntu.outstanding = true
  dropped : p.portU.dropped ≤ 65535
  covered : ∀ y : StationNo, p.psu.posts[y].covered = 0
  others : ∀ y : StationNo, y ≠ st → AtRest p y ∧ p.psu.posts[y].buffer = [] ∧ ∀ i : SlotNo, p.oqu[y].slots[i] = none

theorem map_coverAll (posts : Vector Posting 8) (st : StationNo)
    (h : ∀ y : StationNo, y ≠ st → posts[y].buffer = []) :
    posts.map Posting.coverAll = posts.set st posts[st].coverAll := by
  refine Vector.ext fun i hi => ?_
  rw [Vector.getElem_map]
  by_cases hst : (⟨i, hi⟩ : StationNo) = st
  · subst hst
    exact (set_same posts _ _).symm
  · have hkept : posts[(⟨i, hi⟩ : StationNo)].coverAll = posts[(⟨i, hi⟩ : StationNo)] := by
      rw [coverAll_eq, if_pos (h ⟨i, hi⟩ hst)]
    exact hkept.trans (set_other posts st ⟨i, hi⟩ _ hst).symm

theorem begins_eq (p : Part) (st : StationNo) (hrec : p.portU.received = []) (hd : p.portU.dropped ≤ 65535)
    (hb : ∀ y : StationNo, y ≠ st → p.psu.posts[y].buffer = []) :
    resetBegins p = begunPart p (resetContexts p) (p.psu.posts.set st p.psu.posts[st].coverAll) := by
  rw [resetBegins_eq p hrec hd, map_coverAll _ st hb]

/-- The request in progress while a line reset waits for drains. -/
def resettingMgu (s : State) (tag : Byte) (draining : List StationNo) : Mgu :=
  { s.part.mgu with inProgress := some ⟨0x02, tag, .resetting draining⟩ }

/-- The part that a line reset finds at its one station that is not at rest. -/
def begun (s : State) (st : StationNo) (tag : Byte) : Part :=
  begunPart (s.part.answering (requestOf tag .lineReset)) (resetContexts s.part)
    (s.part.psu.posts.set st s.part.psu.posts[st].coverAll)

section Reset
variable (tag : Byte) (s : State) (st : StationNo) (h : RestsBut s.part st)
include h

theorem begun_rest (y : StationNo) (hy : y ≠ st) :
    AtRest (begun s st tag) y ∧ (begun s st tag).wbu.waitList[y] = none :=
  ⟨(h.others y hy).1, Vector.getElem_replicate y.isLt⟩

/-- A line reset is what it does at that one station, and what it waits for. -/
theorem carryOut_reset (q : Part) (ts : List Task) (draining : List StationNo)
    (hact : resetStation st ⟨begun s st tag, []⟩ = ⟨q, ts⟩)
    (hrest : ∀ y : StationNo, y ≠ st → AtRest q y ∧ q.wbu.waitList[y] = none)
    (hm : q.mgu = (s.part.answering (requestOf tag .lineReset)).mgu) (hd : drainingStations q.psu = draining) :
    carryOut (requestOf tag .lineReset) ⟨s.part.answering (requestOf tag .lineReset), []⟩ =
      ⟨{ q with mgu := resettingMgu s tag draining }, ts⟩ := by
  have hbegins : resetBegins (s.part.answering (requestOf tag .lineReset)) = begun s st tag :=
    begins_eq _ st h.quiet.2.2.2.1 h.dropped fun y hy => (h.others y hy).2.1
  have hfold : allStations.foldl (fun x st => resetStation st x) ⟨begun s st tag, []⟩ = ⟨q, ts⟩ := by
    refine foldl_only (fun x st => resetStation st x) allStations _ _ st (mem_allStations st) (by decide) hact
      (fun y hy => ?_) fun y hy => ?_
    · obtain ⟨hr, hw⟩ := begun_rest tag s st h y hy
      exact resetStation_rest y _ hr hw
    · obtain ⟨hr, hw⟩ := hrest y hy
      exact resetStation_rest y _ hr hw
  have hcarry : carryOut (requestOf tag .lineReset) ⟨s.part.answering (requestOf tag .lineReset), []⟩ =
      (allStations.foldl (fun x st => resetStation st x)
        ⟨resetBegins (s.part.answering (requestOf tag .lineReset)), []⟩).map
          fun p => setPhase (.resetting (drainingStations p.psu)) p := rfl
  rw [hcarry, hbegins, hfold]
  simp only [Ev.map, setPhase, Part.upMgu, hd, hm]
  rfl

/-- A line reset that finds nothing to drain is answered in its event. -/
theorem lineReset_ends (q q' : Part) (ts : List Task) (k : Nat)
    (hact : resetStation st ⟨begun s st tag, []⟩ = ⟨q, ts⟩)
    (hrest : ∀ y : StationNo, y ≠ st → AtRest q y ∧ q.wbu.waitList[y] = none)
    (hm : q.mgu = (s.part.answering (requestOf tag .lineReset)).mgu)
    (hcov : ∀ y : StationNo, q.psu.posts[y].covered = 0)
    (hs : Settles k ⟨{ q with mgu := resettingMgu s tag [] }, ts⟩ { q' with mgu := resettingMgu s tag [] })
    (hk : k ≤ Config.eventFuel) (hout : q'.ntu.outstanding = true) (hU : q'.portU.waiting = [])
    (hD : q'.portD.waiting = []) (hroom : q'.portU.queue.length < 16) (hall : AllAtRest q') :
    exec (.lineReset tag) s = .next (s.answer
      { q' with mgu := s.part.mgu, ntu := joinNotice q'.ntu .lineResetDone none .none } 0x02 tag .done []) := by
  obtain ⟨hreset, hqueue, hi, hrec, -⟩ := h.quiet
  have hdraining : drainingStations q.psu = [] := by
    simp only [drainingStations, List.filter_eq_nil_iff, decide_eq_true_eq]
    intro y _
    rw [hcov y]
    decide
  have hfinish := finish_resets k 14 _ { q' with mgu := resettingMgu s tag [] } 0x02 tag hs hk rfl hqueue hout hU hroom hall
  have hmgu : ({ resettingMgu s tag [] with inProgress := none } : Mgu) = s.part.mgu := by
    show ({ s.part.mgu with inProgress := none } : Mgu) = s.part.mgu
    rw [← show s.part.mgu.inProgress = none from hi]
  rw [hmgu] at hfinish
  refine request_taken (requestOf tag .lineReset) s _ hreset hqueue hi hrec ?_ hU hD
  rw [carryOut_reset tag s st h q ts [] hact hrest hm hdraining]
  exact hfinish

end Reset

end Sys2Proof.Machine
end

section
/-! PROOF. What a line reset closes at a station: its active, on-deck and ring orders (R61, R95, R99). -/

namespace Sys2Proof.Machine

/-! ### The active order (R99, R95) -/

/-- R99: the active order closes with a SAW STOP behind an empty frame list. -/
theorem resetStation_active (st : StationNo) (p : Part) (ts : List Task) (a : Active) (n : SlabNo) (slab : Slab)
    (h : Holder) (ha : p.cpl[st].active = some a) (hf : p.cpl[st].frames = []) (hn : a.order.sourceRecord = some n)
    (hslab : p.stk.slabs[n] = some slab) (hcut : slab.state = .cutting h) (hstate : a.order.state = .active)
    (hout : p.ntu.outstanding = true) (hwU : p.portU.waiting = []) (hwD : p.portD.waiting = [])
    (hU : p.portU.queue.length < 16) (hD : p.portD.queue.length < 16) :
    resetStation st ⟨p, ts⟩ = flushStation st .lineReset true
      ⟨Part.sentU (Part.sentD
        (failedPart p st a.order n slab .service (joinNotice p.ntu .slabDoubtful (some st) (.slab n)))
        [⟨BitVec.ofNat 8 p.map[st].node, 1, 0x47, []⟩])
        [recordFrame (failedRecord st a.order .lineReset 0 a.waterUsed)], ts ++ [.station st] ++ [.station st]⟩ := by
  have hdrop : dropSaw st SawFrame.isProgram ⟨p, ts⟩ = ⟨p, ts⟩ := by
    simp only [dropSaw, hf, List.head?_nil, Option.any_none, Bool.false_eq_true, if_false, Ev.map]
    rw [upCpl_id p st _ (by rw [hf, List.filter_nil, ← hf])]
  have hnone : stopWaits p.cpl[st] = false := by simp only [stopWaits, hf, List.any_nil]
  have hplace : placeSaw st .stop none [] ⟨p, ts⟩ = ⟨p.sentD [⟨BitVec.ofNat 8 p.map[st].node, 1, 0x47, []⟩], ts⟩ := by
    rw [placeSaw_alone st .stop none [] ⟨p, ts⟩ hf hD]
    have hactive : (p.sentD [⟨BitVec.ofNat 8 p.map[st].node, 1, 0x47, []⟩]).cpl[st].active = some a := ha
    have hentered : stopEntered st ⟨.stop, none, toSaw p st SawKind.stop.code []⟩
        (p.sentD [⟨BitVec.ofNat 8 p.map[st].node, 1, 0x47, []⟩]) =
          p.sentD [⟨BitVec.ofNat 8 p.map[st].node, 1, 0x47, []⟩] := by
      simp only [stopEntered, hactive, reduceCtorEq, and_false, if_false]
    exact congrArg (Ev.mk · ts) hentered
  have hcloses := failActive_closes st a .lineReset 0 .service true
    (p.sentD [⟨BitVec.ofNat 8 p.map[st].node, 1, 0x47, []⟩]) ts n slab h hn hslab hcut hstate hout hwU hwD hU (.inl rfl) _ rfl
  simp only [resetStation, ha, hdrop, hnone, Bool.false_eq_true, if_false, hplace, hcloses, if_true]
  rfl

theorem resetStation_inactive (st : StationNo) (e : Ev) (ha : e.p.cpl[st].active = none) :
    resetStation st e = flushStation st .lineReset true e := by
  simp only [resetStation, ha]

/-! ### The orders outside the active slot (R61) -/

/-- A flush of a station with one order on-deck and one QUEUED in its ring. -/
theorem flushStation_both (st : StationNo) (outcome : CutOutcome) (p : Part) (ts : List Task) (r : Ring)
    (d : OnDeck) (x : OrderRec) (slabs : Vector (Option Slab) 512) (hr : p.oqu[st] = r)
    (hone : r.producer = r.consumer + 1) (hx : r.slots[r.consumer] = some x) (hslot : x.slot = r.consumer)
    (hxs : x.state = .queued) (hd : p.cpl[st].onDeck = some d) (hf : p.cpl[st].frames = [])
    (hD : p.portD.queue.length < 16) (hU : p.portU.queue.length + 1 < 16) (hstate : d.order.state = .onDeck)
    (hslabs : freedSlabs st d.order p.stk.slabs = slabs) :
    flushStation st outcome true ⟨p, ts⟩ =
      ⟨Part.sentU (Part.sentD
        { p with
          cpl := p.cpl.set st { p.cpl[st] with onDeck := none }
          stk := ⟨slabs, p.stk.reservations - d.order.planned⟩
          jau := { p.jau with jobs := p.jau.jobs.set d.order.order.job p.jau.jobs[d.order.order.job].lower }
          wbu := { p.wbu with
            waitList := p.wbu.waitList.set st none
            reserved := p.wbu.reserved - d.order.remaining }
          oqu := p.oqu.set st { r with slots := r.slots.set r.consumer (some (x.spent outcome)), chains := [] } }
        (unstageFrames p st d))
        [recordFrame (closedRecord st d.order outcome), recordFrame (closedRecord st x outcome)],
        ts ++ [.station st] ++ [.station st]⟩ := by
  subst hr hslabs
  have hun := unstageOnDeck_eq st d (leaveWaitList st p) ts hd hf hD
  have hundo := undoClaim_eq st d.order true (Part.sentD
    { leaveWaitList st p with cpl := p.cpl.set st { p.cpl[st] with onDeck := none } } (unstageFrames p st d)) ts
    { p.wbu with waitList := p.wbu.waitList.set st none, reserved := p.wbu.reserved - d.order.remaining } (by
      simp only [Part.sentD, leaveWaitList, Part.upWbu, upd_eq_set, hstate, reduceCtorEq, if_false]) (.inl rfl)
  let q : Part := Part.sentU (Part.sentD
    { p with
      cpl := p.cpl.set st { p.cpl[st] with onDeck := none }
      stk := ⟨freedSlabs st d.order p.stk.slabs, p.stk.reservations - d.order.planned⟩
      jau := { p.jau with jobs := p.jau.jobs.set d.order.order.job p.jau.jobs[d.order.order.job].lower }
      wbu := { p.wbu with
        waitList := p.wbu.waitList.set st none
        reserved := p.wbu.reserved - d.order.remaining } } (unstageFrames p st d))
    [recordFrame (closedRecord st d.order outcome)]
  have hclose : closeOnDeck st outcome true ⟨leaveWaitList st p, ts⟩ = ⟨q, ts ++ [.station st]⟩ :=
    closeOnDeck_eq st outcome true (leaveWaitList st p) _ ts d _ hd hun hundo (Nat.lt_of_succ_lt hU)
  have hqueued := closeInRing_queued st p.oqu[st].consumer outcome true q (ts ++ [.station st]) x hx hxs (by
    simp only [q, Part.sentU, Part.sentD, List.length_append, List.length_singleton]
    exact hU)
  have hspend : q.oqu[st].spend p.oqu[st].consumer outcome = _ := spend_one p.oqu[st] x outcome hone hx
  rw [hspend] at hqueued
  rw [flushStation_ring st outcome true p ts _ [x] hclose (openOrders_single _ x hone hx (isOpen_queued x hxs))]
  simp only [List.map_cons, List.map_nil, closeAll, List.foldl, hslot]
  rw [hqueued]
  simp only [Ev.map, upRing_eq_set, Part.sentU, set_same, Vector.set_set, q, Part.sentD, List.append_assoc,
    List.singleton_append]

/-! ### The examinations behind it -/

theorem settles_stations (st : StationNo) (q : Part) (ts : List Task) (hts : ∀ x ∈ ts, x = .station st)
    (he : q.oqu[st].producer = q.oqu[st].consumer) (hd : q.cpl[st].onDeck = none) : Settles ts.length ⟨q, ts⟩ q := by
  refine settles_none q ts fun x hx rest => ?_
  rw [hts x hx]
  exact examineStation_empty st q rest he hd

/-- CPL passes the spent slot, and then finds nothing. -/
theorem settles_spent (st : StationNo) (p : Part) (ts : List Task) (r : Ring) (x : OrderRec) (outcome : CutOutcome)
    (hone : r.producer = r.consumer + 1)
    (hr : p.oqu[st] = { r with slots := r.slots.set r.consumer (some (x.spent outcome)), chains := [] })
    (hd : p.cpl[st].onDeck = none) (hts : ∀ x ∈ ts, x = .station st) :
    Settles (ts.length + 1) ⟨p, .station st :: ts⟩
      { p with
        oqu := p.oqu.set st
          { r with slots := r.slots.set r.consumer none, consumer := r.consumer + 1, chains := [] } } := by
  refine settles_examined _ st p _ _ ts (examineStation_spent st p ts r x outcome [] hone hr hd) ?_
  have hring := set_same p.oqu st
    { r with slots := r.slots.set r.consumer none, consumer := r.consumer + 1, chains := [] }
  exact settles_stations st _ ts hts ((congrArg Ring.producer hring).trans (hone.trans (congrArg Ring.consumer hring).symm))
    hd

/-! ### The contexts -/

theorem resetContexts_none (p : Part) (h : ∀ y : StationNo, p.cpl[y].active = none) : resetContexts p =
    Vector.ofFn fun y : StationNo => ⟨.service, .cell, ⟨false, false, false⟩,
      if (none : Option StationNo) = some y then none else p.stc[y].behind⟩ := by
  refine congrArg Vector.ofFn (funext fun y => ?_)
  rw [h y]
  rfl

theorem resetContexts_closed (p : Part) (st : StationNo) (h : ∀ y : StationNo, y ≠ st → p.cpl[y].active = none) :
    (resetContexts p).set st { (resetContexts p)[st] with state := .service, behind := none } =
      Vector.ofFn fun y : StationNo => ⟨.service, .cell, ⟨false, false, false⟩,
        if some st = some y then none else p.stc[y].behind⟩ := by
  have hget : ∀ y : StationNo, (resetContexts p)[y] = resetContext p.cpl[y].active.isSome p.stc[y] := fun y =>
    Vector.getElem_ofFn y.isLt
  refine Vector.ext fun i hi => ?_
  rw [Vector.getElem_ofFn]
  by_cases hy : (⟨i, hi⟩ : StationNo) = st
  · subst hy
    rw [if_pos rfl]
    refine (set_same (resetContexts p) (⟨i, hi⟩ : StationNo) _).trans ?_
    rw [hget]
    rfl
  · rw [if_neg fun e => hy (Option.some.inj e).symm]
    refine (set_other (resetContexts p) st ⟨i, hi⟩ _ hy).trans ?_
    rw [hget, h _ hy]
    rfl

end Sys2Proof.Machine
end

section
/-! PROOF. LINE RESET as a whole: with one station that is not at rest, with drains to wait for, and its completion. -/

namespace Sys2Proof.Machine

/-- The part that a line reset leaves, its frames apart. -/
def resetPart (p : Part) (stk : Stk) (jau : Jau) (reserved : Nat) (cpl : Vector Pipeline 8) (oqu : Vector Ring 8)
    (stc : Vector StationCtx 8) (posts : Vector Posting 8) (u : Ntu) : Part :=
  { p with
    portD := { p.portD with received := [], dropped := min 65535 (p.portD.dropped + p.portD.received.length) }
    stk := stk, jau := jau, cpl := cpl, oqu := oqu, stc := stc
    wbu := { p.wbu with waitList := Vector.replicate 8 none, reserved := reserved }
    psu := { p.psu with
      posts := posts
      freeze := if p.psu.freeze = .frozen then .thawed else p.psu.freeze
      freezeTimer := if p.psu.freeze = .frozen then .stopped else p.psu.freezeTimer }
    ntu := u }

theorem begun_eq (s : State) (st : StationNo) (tag : Byte) (hb : s.part.psu.posts[st].buffer = []) :
    begun s st tag = resetPart (s.part.answering (requestOf tag .lineReset)) s.part.stk s.part.jau s.part.wbu.reserved
      s.part.cpl s.part.oqu (resetContexts s.part) s.part.psu.posts s.part.ntu := by
  have hposts : s.part.psu.posts.set st s.part.psu.posts[st].coverAll = s.part.psu.posts := by
    rw [coverAll_eq, if_pos hb]
    exact Vector.set_getElem_self _
  simp only [begun, hposts]
  rfl

/-- How the ring of the station that closes its orders ends: it was empty, or CPL passes its one spent slot. -/
def RingEnds (ts : List Task) (before after : Ring) : Prop :=
  (before = after ∧ after.producer = after.consumer)
    ∨ ∃ (r : Ring) (x : OrderRec), ts ≠ [] ∧ r.producer = r.consumer + 1
      ∧ before = { r with slots := r.slots.set r.consumer (some (x.spent .lineReset)), chains := [] }
      ∧ after = { r with slots := r.slots.set r.consumer none, consumer := r.consumer + 1, chains := [] }

theorem settles_ringEnds (st : StationNo) (p : Part) (ts : List Task) (before after : Ring) (h : RingEnds ts before after)
    (hp : p.oqu[st] = before) (hd : p.cpl[st].onDeck = none) (hts : ∀ x ∈ ts, x = .station st) :
    Settles ts.length ⟨p, ts⟩ { p with oqu := p.oqu.set st after } := by
  rcases h with ⟨rfl, he⟩ | ⟨r, x, hne, hone, hb, rfl⟩
  · have hsame : p.oqu.set st before = p.oqu := by
      rw [← hp]
      exact Vector.set_getElem_self _
    rw [hsame]
    exact settles_stations st p ts hts (by rw [hp]; exact he) hd
  · obtain ⟨t, rest, rfl⟩ := List.exists_cons_of_ne_nil hne
    obtain ⟨rfl, hrest⟩ := List.forall_mem_cons.mp hts
    exact settles_spent st p rest r x .lineReset hone (hp.trans hb) hd hrest

section Reset
variable (tag : Byte) (s : State) (st : StationNo) (h : RestsBut s.part st)
include h

/-- A line reset that has nothing to drain is answered, behind what it closes at its one station. -/
theorem reset_answered (stk : Stk) (jau : Jau) (reserved : Nat) (c : Pipeline) (before after : Ring)
    (stc : Vector StationCtx 8) (posts : Vector Posting 8) (u : Ntu) (down up : List Frame) (ts : List Task)
    (hact : resetStation st ⟨begun s st tag, []⟩ = ⟨Part.sentU (Part.sentD
      (resetPart (s.part.answering (requestOf tag .lineReset)) stk jau reserved (s.part.cpl.set st c)
        (s.part.oqu.set st before) stc posts u) down) up, ts⟩)
    (hring : RingEnds ts before after) (hts : ∀ x ∈ ts, x = .station st) (hlen : ts.length ≤ 8)
    (hdeck : c.onDeck = none) (hframes : c.frames = []) (hslots : ∀ i : SlotNo, after.slots[i] = none)
    (hstc : ∀ y : StationNo, stc[y].state = .service) (hcov : ∀ y : StationNo, posts[y].covered = 0)
    (hout : u.outstanding = true) (hroom : s.part.portU.queue.length + up.length < 16) :
    exec (.lineReset tag) s = .next (s.answer (Part.sentU (Part.sentD
      (resetPart s.part stk jau reserved (s.part.cpl.set st c) (s.part.oqu.set st after) stc posts
        (joinNotice u .lineResetDone none .none)) down) up) 0x02 tag .done []) := by
  let m := resettingMgu s tag []
  let q : Part := Part.sentU (Part.sentD
    (resetPart (s.part.answering (requestOf tag .lineReset)) stk jau reserved (s.part.cpl.set st c)
      (s.part.oqu.set st before) stc posts u) down) up
  have hpipe : ({ q with mgu := m } : Part).cpl[st] = c := set_same s.part.cpl st c
  have hsettles := settles_ringEnds st { q with mgu := m } ts before after hring (set_same s.part.oqu st before)
    ((congrArg Pipeline.onDeck hpipe).trans hdeck) hts
  have hafter : (s.part.oqu.set st before).set st after = s.part.oqu.set st after := Vector.set_set ..
  refine (lineReset_ends tag s st h q { q with oqu := s.part.oqu.set st after } ts ts.length hact (fun y hy => ?_) rfl hcov ?_
    (Nat.le_trans hlen (by decide)) hout h.quiet.2.2.2.2.2.1 h.quiet.2.2.2.2.2.2 ?_ fun y => ⟨hstc y, ?_⟩).trans rfl
  · obtain ⟨he, hc, hd, ha, hf⟩ := (h.others y hy).1
    have hcpl : q.cpl[y] = s.part.cpl[y] := set_other s.part.cpl st y c hy
    have hoqu : q.oqu[y] = s.part.oqu[y] := set_other s.part.oqu st y before hy
    refine ⟨?_, Vector.getElem_replicate y.isLt⟩
    rw [AtRest, hcpl, hoqu]
    exact ⟨he, hc, hd, ha, hf⟩
  · rw [← hafter]
    exact hsettles
  · simp only [q, Part.sentU, Part.sentD, resetPart, Part.answering_portU, List.length_append]
    exact hroom
  · by_cases hy : y = st
    · subst hy
      have hoqu : (s.part.oqu.set y after)[y] = after := set_same s.part.oqu y after
      refine ⟨(congrArg Pipeline.frames hpipe).trans hframes, fun i => ?_⟩
      exact (congrArg (fun r : Ring => r.slots[i]) hoqu).trans (hslots i)
    · obtain ⟨⟨-, -, -, -, hf⟩, -, hs⟩ := h.others y hy
      refine ⟨(congrArg Pipeline.frames (set_other s.part.cpl st y c hy)).trans hf, fun i => ?_⟩
      exact (congrArg (fun r : Ring => r.slots[i]) (set_other s.part.oqu st y after hy)).trans (hs i)

end Reset

end Sys2Proof.Machine
end

section
/-! PROOF. LINE RESET with each order of its one station, with drains, and its completion (R17, R61, R99, R165). -/

namespace Sys2Proof.Machine

/-- The contexts that a line reset leaves (R39), and a held pause of the station whose active order it closes. -/
def serviceContexts (p : Part) (closed : Option StationNo) : Vector StationCtx 8 :=
  Vector.ofFn fun y : StationNo => ⟨.service, .cell, ⟨false, false, false⟩, if closed = some y then none else p.stc[y].behind⟩

theorem serviceContexts_state (p : Part) (closed : Option StationNo) (y : StationNo) :
    (serviceContexts p closed)[y].state = .service := congrArg StationCtx.state (Vector.getElem_ofFn y.isLt)

theorem failedPart_cpl (p : Part) (st : StationNo) (o : OrderRec) (n : SlabNo) (slab : Slab) (next : StationState)
    (u : Ntu) : (failedPart p st o n slab next u).cpl[st] =
      { p.cpl[st] with active := none, overrun := .stopped, stop := .stopped } := set_same p.cpl st _

theorem freed_slots (r : Ring) (h : ∀ i : SlotNo, i ≠ r.consumer → r.slots[i] = none) (i : SlotNo) :
    (r.slots.set r.consumer none)[i] = none := by
  by_cases hi : i = r.consumer
  · rw [hi, set_same]
  · rw [set_other _ _ _ _ hi]
    exact h i hi

theorem sentU_nil (p : Part) : p.sentU [] = p := by
  simp only [Part.sentU, List.append_nil]

theorem set_replicate (st : StationNo) :
    (Vector.replicate 8 (none : Option Nat)).set st none = Vector.replicate 8 none := by
  refine Vector.ext fun i hi => ?_
  by_cases hy : (⟨i, hi⟩ : StationNo) = st
  · subst hy
    exact (set_same (Vector.replicate 8 (none : Option Nat)) (⟨i, hi⟩ : StationNo) none).trans
      (Vector.getElem_replicate hi).symm
  · exact set_other (Vector.replicate 8 (none : Option Nat)) st ⟨i, hi⟩ none hy

section Reset
variable (tag : Byte) (s : State) (st : StationNo) (h : RestsBut s.part st)
include h

theorem resetContexts_inactive (ha : s.part.cpl[st].active = none) :
    resetContexts s.part = serviceContexts s.part none := by
  refine resetContexts_none s.part fun y => ?_
  by_cases hy : y = st
  · rw [hy]
    exact ha
  · exact (h.others y hy).1.2.2.2.1

theorem resetContexts_active : (resetContexts s.part).set st
    { (resetContexts s.part)[st] with state := .service, behind := none } = serviceContexts s.part (some st) :=
  resetContexts_closed s.part st fun y hy => (h.others y hy).1.2.2.2.1

theorem posts_covered (x : Posting) (hx : x.covered = 0) (y : StationNo) :
    (s.part.psu.posts.set st x)[y].covered = 0 := by
  by_cases hy : y = st
  · rw [hy, set_same]
    exact hx
  · rw [set_other _ _ _ _ hy]
    exact h.covered y

/-! ### A station at rest -/

theorem reset_rest (hrest : AtRest s.part st) (hslots : ∀ i : SlotNo, s.part.oqu[st].slots[i] = none)
    (hb : s.part.psu.posts[st].buffer = []) (hroom : RoomU 1 s.part) :
    exec (.lineReset tag) s = .next (s.answer (resetPart s.part s.part.stk s.part.jau s.part.wbu.reserved s.part.cpl
      s.part.oqu (serviceContexts s.part none) s.part.psu.posts (joinNotice s.part.ntu .lineResetDone none .none))
      0x02 tag .done []) := by
  have hcpl : s.part.cpl.set st s.part.cpl[st] = s.part.cpl := Vector.set_getElem_self _
  have hoqu : s.part.oqu.set st s.part.oqu[st] = s.part.oqu := Vector.set_getElem_self _
  have hact := reset_answered tag s st h s.part.stk s.part.jau s.part.wbu.reserved s.part.cpl[st] s.part.oqu[st]
    s.part.oqu[st] (serviceContexts s.part none) s.part.psu.posts s.part.ntu [] [] [] (by
      rw [resetStation_rest st ⟨begun s st tag, []⟩ hrest (Vector.getElem_replicate st.isLt), begun_eq s st tag hb, hcpl, hoqu,
        resetContexts_inactive s st h hrest.2.2.2.1, sentD_nil]
      exact congrArg (Ev.mk · []) (sentU_nil _).symm)
    (.inl ⟨rfl, hrest.1⟩) (by simp) (by simp) hrest.2.2.1 hrest.2.2.2.2 hslots
    (serviceContexts_state s.part none) h.covered h.outstanding hroom
  rw [hcpl, hoqu, sentD_nil, sentU_nil] at hact
  exact hact

/-- R165: with entries buffered the line reset waits for their drain. -/
theorem reset_drains (hrest : AtRest s.part st) (hb : s.part.psu.posts[st].buffer ≠ []) :
    exec (.lineReset tag) s = .next (s.withPart
      { resetPart s.part s.part.stk s.part.jau s.part.wbu.reserved s.part.cpl s.part.oqu (serviceContexts s.part none)
          (s.part.psu.posts.set st
            { s.part.psu.posts[st] with covered := s.part.psu.posts[st].buffer.length, timer := .stopped }) s.part.ntu with
        mgu := resettingMgu s tag [st] }) := by
  obtain ⟨hreset, hqueue, hi, hrec, -, hwU, hwD⟩ := h.quiet
  have hcover : s.part.psu.posts[st].coverAll =
      { s.part.psu.posts[st] with covered := s.part.psu.posts[st].buffer.length, timer := .stopped } := by
    rw [coverAll_eq, if_neg hb]
  have hdraining : drainingStations (begun s st tag).psu = [st] := by
    have hposts : ∀ y : StationNo, decide (0 < (begun s st tag).psu.posts[y].covered) = decide (y = st) := by
      intro y
      by_cases hy : y = st
      · subst hy
        have hpost : (begun s y tag).psu.posts[y] = s.part.psu.posts[y].coverAll := set_same s.part.psu.posts y _
        rw [hpost, hcover, decide_eq_true rfl]
        exact decide_eq_true (List.length_pos_iff.mpr hb)
      · have hpost : (begun s st tag).psu.posts[y] = s.part.psu.posts[y] := set_other s.part.psu.posts st y _ hy
        rw [hpost, h.covered y, decide_eq_false hy]
        rfl
    have hone : ∀ y : StationNo, (allStations.filter fun x => decide (x = y)) = [y] := by decide
    rw [drainingStations, funext hposts]
    exact hone st
  have hcarry := carryOut_reset tag s st h (begun s st tag) [] [st]
    (resetStation_rest st ⟨begun s st tag, []⟩ hrest (Vector.getElem_replicate st.isLt)) (begun_rest tag s st h) rfl hdraining
  refine (request_taken (requestOf tag .lineReset) s { begun s st tag with mgu := resettingMgu s tag [st] } hreset hqueue hi
    hrec ?_ hwU hwD).trans ?_
  · rw [hcarry]
    exact finish_stays 15 _ ⟨0x02, tag, .resetting [st]⟩ rfl (.inl (List.cons_ne_nil _ _))
  · simp only [begun, hcover, resetContexts_inactive s st h hrest.2.2.2.1]
    rfl

/-! ### The station's orders, each alone -/

variable (hb : s.part.psu.posts[st].buffer = []) (hframes : s.part.cpl[st].frames = [])
include hb hframes

/-- R99: the active order. -/
theorem reset_active (a : Active) (n : SlabNo) (slab : Slab) (holder : Holder) (r : Ring) (hr : s.part.oqu[st] = r)
    (ha : s.part.cpl[st].active = some a) (hd : s.part.cpl[st].onDeck = none) (he : r.producer = r.consumer)
    (hslots : ∀ i : SlotNo, r.slots[i] = none) (hstate : a.order.state = .active) (hn : a.order.sourceRecord = some n)
    (hslab : s.part.stk.slabs[n] = some slab) (hcut : slab.state = .cutting holder) (hU : RoomU 2 s.part)
    (hD : RoomD 1 s.part) :
    exec (.lineReset tag) s = .next (s.answer (Part.sentU (Part.sentD
      (resetPart s.part
        ⟨s.part.stk.slabs.set n (some { slab with state := .doubtful }), s.part.stk.reservations - a.order.planned⟩
        { s.part.jau with
          jobs := s.part.jau.jobs.set a.order.order.job s.part.jau.jobs[a.order.order.job].lower }
        (s.part.wbu.reserved - a.order.remaining)
        (s.part.cpl.set st { s.part.cpl[st] with active := none, overrun := .stopped, stop := .stopped })
        (s.part.oqu.set st { r with chains := [] }) (serviceContexts s.part (some st))
        (s.part.psu.posts.set st { s.part.psu.posts[st] with target := .house })
        (joinNotice (joinNotice s.part.ntu .slabDoubtful (some st) (.slab n)) .lineResetDone none .none))
      [⟨BitVec.ofNat 8 s.part.map[st].node, 1, 0x47, []⟩])
      [recordFrame (failedRecord st a.order .lineReset 0 a.waterUsed)]) 0x02 tag .done []) := by
  obtain ⟨-, -, -, -, -, hwU, hwD⟩ := h.quiet
  refine reset_answered tag s st h _ _ _ _ _ _ _ _ _ _ _ [.station st, .station st] ?_ (.inl ⟨rfl, he⟩) (by simp) (by simp)
    hd hframes hslots (serviceContexts_state s.part _) (posts_covered s st h _ (h.covered st))
    ((joinNotice_outstanding _ _ _ _).trans h.outstanding) hU
  have hclosed := resetStation_active st (begun s st tag) [] a n slab holder ha hframes hn hslab hcut hstate h.outstanding
    hwU hwD (Nat.lt_of_succ_lt hU) hD
  refine hclosed.trans ((flushStation_none st .lineReset true _ _ r (by exact hr) he (by
    exact (congrArg Pipeline.onDeck (failedPart_cpl (begun s st tag) st a.order n slab .service s.part.ntu)).trans hd)).trans ?_)
  rw [begun_eq s st tag hb, ← resetContexts_active s st h]
  simp only [failedPart, resetPart, Part.sentU, Part.sentD, set_replicate]
  rfl

/-- R61: the order on-deck. -/
theorem reset_deck (d : OnDeck) (r : Ring) (slabs : Vector (Option Slab) 512) (hr : s.part.oqu[st] = r)
    (ha : s.part.cpl[st].active = none) (hd : s.part.cpl[st].onDeck = some d) (he : r.producer = r.consumer)
    (hslots : ∀ i : SlotNo, r.slots[i] = none) (hstate : d.order.state = .onDeck)
    (hslabs : freedSlabs st d.order s.part.stk.slabs = slabs) (hU : RoomU 2 s.part) (hD : RoomD 1 s.part) :
    exec (.lineReset tag) s = .next (s.answer (Part.sentU (Part.sentD
      (resetPart s.part ⟨slabs, s.part.stk.reservations - d.order.planned⟩
        { s.part.jau with
          jobs := s.part.jau.jobs.set d.order.order.job s.part.jau.jobs[d.order.order.job].lower }
        (s.part.wbu.reserved - d.order.remaining)
        (s.part.cpl.set st { s.part.cpl[st] with onDeck := none })
        (s.part.oqu.set st { r with chains := [] }) (serviceContexts s.part none) s.part.psu.posts
        (joinNotice s.part.ntu .lineResetDone none .none))
      (unstageFrames s.part st d)) [recordFrame (closedRecord st d.order .lineReset)]) 0x02 tag .done []) := by
  refine reset_answered tag s st h _ _ _ _ _ _ _ _ _ _ _ [.station st] ?_ (.inl ⟨rfl, he⟩) (by simp) (by simp)
    rfl hframes hslots (serviceContexts_state s.part _) h.covered h.outstanding hU
  refine (resetStation_inactive st ⟨begun s st tag, []⟩ ha).trans
    ((flushStation_onDeck st .lineReset true (begun s st tag) [] r d _ slabs hr he hd hframes hD (Nat.lt_of_succ_lt hU) hstate
      rfl (.inl rfl) hslabs).trans ?_)
  rw [begun_eq s st tag hb, ← resetContexts_inactive s st h ha]
  simp only [resetPart, Part.sentU, Part.sentD, set_replicate]
  rfl

/-- R61: an order QUEUED in the ring. -/
theorem reset_ring (x : OrderRec) (r : Ring) (hr : s.part.oqu[st] = r) (ha : s.part.cpl[st].active = none)
    (hd : s.part.cpl[st].onDeck = none) (hone : r.producer = r.consumer + 1) (hx : r.slots[r.consumer] = some x)
    (hothers : ∀ i : SlotNo, i ≠ r.consumer → r.slots[i] = none) (hslot : x.slot = r.consumer) (hstate : x.state = .queued)
    (hU : RoomU 2 s.part) :
    exec (.lineReset tag) s = .next (s.answer (Part.sentU
      (resetPart s.part s.part.stk s.part.jau s.part.wbu.reserved s.part.cpl
        (s.part.oqu.set st { r with slots := r.slots.set r.consumer none, consumer := r.consumer + 1, chains := [] })
        (serviceContexts s.part none) s.part.psu.posts (joinNotice s.part.ntu .lineResetDone none .none))
      [recordFrame (closedRecord st x .lineReset)]) 0x02 tag .done []) := by
  have hcpl : s.part.cpl.set st s.part.cpl[st] = s.part.cpl := Vector.set_getElem_self _
  have hnot : ¬x.isClaimed = true := by simp only [OrderRec.isClaimed, hstate, Bool.false_eq_true, not_false_eq_true]
  have hw : ¬x.state = .waiting := by rw [hstate]; decide
  have hact := reset_answered tag s st h s.part.stk s.part.jau s.part.wbu.reserved s.part.cpl[st]
    { r with slots := r.slots.set r.consumer (some (x.spent .lineReset)), chains := [] }
    { r with slots := r.slots.set r.consumer none, consumer := r.consumer + 1, chains := [] }
    (serviceContexts s.part none) s.part.psu.posts s.part.ntu [] [recordFrame (closedRecord st x .lineReset)] [.station st]
    (by
      refine (resetStation_inactive st ⟨begun s st tag, []⟩ ha).trans
        ((flushStation_one st .lineReset true (begun s st tag) _ [] r x hr hone hx hslot (isOpen_queued x hstate) hd
          (if_neg hnot) rfl (Nat.lt_of_succ_lt hU)).trans ?_)
      rw [if_neg hw, begun_eq s st tag hb, ← resetContexts_inactive s st h ha, hcpl, sentD_nil]
      simp only [resetPart, leaveWaitList, Part.upWbu, upd_eq_set, set_replicate]
      rfl)
    (.inr ⟨r, x, by simp, hone, rfl, rfl⟩) (by simp) (by simp) hd hframes (freed_slots r hothers)
    (serviceContexts_state s.part none) h.covered h.outstanding hU
  rw [hcpl, sentD_nil] at hact
  exact hact

end Reset

end Sys2Proof.Machine
end

section
/-! PROOF. LINE RESET with a station's active, on-deck and ring orders together, its last drain, and O56. -/

namespace Sys2Proof.Machine

/-- R61, R95, R99: the active order closes first, then the one on-deck, then the one in the ring. -/
theorem reset_all (tag : Byte) (s : State) (st : StationNo) (h : RestsBut s.part st)
    (hb : s.part.psu.posts[st].buffer = []) (hframes : s.part.cpl[st].frames = []) (a : Active) (d : OnDeck) (x : OrderRec)
    (n : SlabNo) (slab : Slab) (holder : Holder) (r : Ring) (slabs : Vector (Option Slab) 512) (jobs : Vector Job 64)
    (hr : s.part.oqu[st] = r) (ha : s.part.cpl[st].active = some a) (hd : s.part.cpl[st].onDeck = some d)
    (hone : r.producer = r.consumer + 1) (hx : r.slots[r.consumer] = some x)
    (hothers : ∀ i : SlotNo, i ≠ r.consumer → r.slots[i] = none) (hslot : x.slot = r.consumer) (hstate : x.state = .queued)
    (has : a.order.state = .active) (hn : a.order.sourceRecord = some n) (hslab : s.part.stk.slabs[n] = some slab)
    (hcut : slab.state = .cutting holder) (hds : d.order.state = .onDeck)
    (hslabs : freedSlabs st d.order (s.part.stk.slabs.set n (some { slab with state := .doubtful })) = slabs)
    (hjobs : jobs = s.part.jau.jobs.set a.order.order.job s.part.jau.jobs[a.order.order.job].lower)
    (hU : RoomU 4 s.part) (hD : RoomD 2 s.part) :
    exec (.lineReset tag) s = .next (s.answer (Part.sentU (Part.sentD
      (resetPart s.part ⟨slabs, s.part.stk.reservations - a.order.planned - d.order.planned⟩
        { s.part.jau with jobs := jobs.set d.order.order.job jobs[d.order.order.job].lower }
        (s.part.wbu.reserved - a.order.remaining - d.order.remaining)
        (s.part.cpl.set st
          { s.part.cpl[st] with active := none, onDeck := none, overrun := .stopped, stop := .stopped })
        (s.part.oqu.set st { r with slots := r.slots.set r.consumer none, consumer := r.consumer + 1, chains := [] })
        (serviceContexts s.part (some st))
        (s.part.psu.posts.set st { s.part.psu.posts[st] with target := .house })
        (joinNotice (joinNotice s.part.ntu .slabDoubtful (some st) (.slab n)) .lineResetDone none .none))
      (⟨BitVec.ofNat 8 s.part.map[st].node, 1, 0x47, []⟩ :: unstageFrames s.part st d))
      [recordFrame (failedRecord st a.order .lineReset 0 a.waterUsed), recordFrame (closedRecord st d.order .lineReset),
        recordFrame (closedRecord st x .lineReset)]) 0x02 tag .done []) := by
  subst hjobs
  obtain ⟨-, -, -, -, -, hwU, hwD⟩ := h.quiet
  refine reset_answered tag s st h _ _ _ _ { r with
    slots := r.slots.set r.consumer (some (x.spent .lineReset)), chains := [] } _ _ _ _ _ _
    [.station st, .station st, .station st, .station st] ?_ (.inr ⟨r, x, by simp, hone, rfl, rfl⟩) (by simp) (by simp)
    rfl hframes (freed_slots r hothers) (serviceContexts_state s.part _) (posts_covered s st h _ (h.covered st))
    ((joinNotice_outstanding _ _ _ _).trans h.outstanding) hU
  have hclosed := resetStation_active st (begun s st tag) [] a n slab holder ha hframes hn hslab hcut has h.outstanding
    hwU hwD (Nat.lt_of_lt_of_le (Nat.lt_add_of_pos_right (by decide)) hU)
    (Nat.lt_of_lt_of_le (Nat.lt_add_of_pos_right (by decide)) hD)
  have hpipe := failedPart_cpl (begun s st tag) st a.order n slab .service s.part.ntu
  refine hclosed.trans ((flushStation_both st .lineReset _ _ r d x slabs (by exact hr) hone hx hslot hstate
    (by exact (congrArg Pipeline.onDeck hpipe).trans hd) (by exact (congrArg Pipeline.frames hpipe).trans hframes)
    ?_ ?_ hds (by exact hslabs)).trans ?_)
  · simp only [Part.sentU, Part.sentD, failedPart, begun, begunPart, Part.answering_portD, List.length_append,
      List.length_singleton]
    exact hD
  · simp only [Part.sentU, Part.sentD, failedPart, begun, begunPart, Part.answering_portU, List.length_append,
      List.length_singleton]
    omega
  · rw [begun_eq s st tag hb, ← resetContexts_active s st h]
    simp only [failedPart, resetPart, Part.sentU, Part.sentD, set_replicate, set_same, Vector.set_set, List.append_assoc,
      List.singleton_append]
    rfl

/-! ### Completion -/

/-- An event that leaves a line reset with every part done answers it. -/
theorem event_completes (f : Ev → Ev) (p q : Part) (code tag : Byte) (hf : f ⟨p, []⟩ = ⟨q, []⟩)
    (hi : q.mgu.inProgress = some ⟨code, tag, .resetting []⟩) (hq : q.mgu.queue = []) (hwU : q.portU.waiting = [])
    (hwD : q.portD.waiting = []) (hroom : RoomU 1 q) (hout : q.ntu.outstanding = true) (hrest : AllAtRest q) :
    event f p = Part.sentU
      { q with
        mgu := { q.mgu with inProgress := none }
        ntu := joinNotice q.ntu .lineResetDone none .none } [answerFrame code tag .done []] := by
  simp only [event, hf, Config.requestFuel]
  rw [finish_resets 0 15 ⟨q, []⟩ q code tag (settles_done q) (by decide) hi hq hout hwU hroom hrest]
  exact closeGroups_none_waiting _ hwU hwD

/-- R155, R165: the application of the one entry that a drain still covers completes it. -/
theorem drainOnce_last (st : StationNo) (p : Part) (y : Entry) (code tag : Byte) (hz : p.psu.freeze ≠ .frozen)
    (hb : p.psu.posts[st].buffer = [y]) (hc : p.psu.posts[st].covered = 1)
    (hi : p.mgu.inProgress = some ⟨code, tag, .resetting [st]⟩)
    (hs : ((p.jau.jobs[y.target.job]).acc y.target.ctx).saturatedBy y = false) :
    drainOnce st ⟨p, []⟩ =
      ⟨{ p with
        psu := { p.psu with
          posts := p.psu.posts.set st ⟨p.psu.posts[st].target, [], 0, p.psu.posts[st].timer⟩ }
        jau := { p.jau with jobs := p.jau.jobs.set y.target.job (p.jau.jobs[y.target.job].apply y) }
        mgu := { p.mgu with inProgress := some ⟨code, tag, .resetting []⟩ } }, []⟩ := by
  have hgo : ¬(p.psu.freeze = .frozen ∨ p.psu.posts[st].covered = 0) := by
    rintro (h | h)
    · exact hz h
    · omega
  let p1 : Part := { p with
    psu := { p.psu with posts := p.psu.posts.set st { p.psu.posts[st] with buffer := [] } }
    jau := { p.jau with jobs := p.jau.jobs.set y.target.job (p.jau.jobs[y.target.job].apply y) } }
  have happly : applyFront st ⟨p, []⟩ = ⟨p1, []⟩ := by
    have hentry := applyEntry_eq st y ((Ev.mk p []).map fun p => p.upPost st fun y => { y with buffer := [] }) p.ntu
      (fun hf => absurd hf (by
        rw [Bool.not_eq_true]
        exact hs)) fun _ => rfl
    simp only [applyFront, hb]
    exact hentry
  let left : Posting := ⟨p.psu.posts[st].target, [], 0, p.psu.posts[st].timer⟩
  let q1 : Part := { p1 with psu := { p.psu with posts := p.psu.posts.set st left } }
  let q2 : Part := { q1 with mgu := { p.mgu with inProgress := some ⟨code, tag, .resetting []⟩ } }
  have hpost : p1.psu.posts[st] = { p.psu.posts[st] with buffer := [] } := set_same p.psu.posts st _
  have hup : (p1.upPost st fun y => { y with covered := 0 }) = q1 := by
    rw [upPost_eq_set, hpost]
    simp only [p1, q1, left, Vector.set_set]
  have hdone : drainDone st q1 = q2 := by
    have hmgu : q1.mgu.inProgress = some ⟨code, tag, .resetting [st]⟩ := hi
    have hnone : ([st].filter fun x => decide (x ≠ st)) = [] := by simp
    simp only [drainDone, Part.upMgu, hmgu, Option.map_some, hnone]
    rfl
  have hbatch : batchTest st q2 = q2 := by
    have hleft : q2.psu.posts[st] = left := set_same p.psu.posts st left
    have hkept : left.batch = left := if_neg fun h => absurd h.2 (by simp [left])
    refine (if_neg (by exact hz)).trans ?_
    rw [upPost_eq_set, hleft, hkept]
    simp only [q2, q1, Vector.set_set]
  have hlower : lowerCovered st p1 = q2 := by
    have hzero : p1.psu.posts[st].covered - 1 = 0 := by
      rw [hpost]
      exact Nat.sub_eq_zero_of_le (Nat.le_of_eq hc)
    simp only [lowerCovered, hzero, if_true]
    rw [hup, hdone, hbatch]
  simp only [drainOnce]
  rw [if_neg (by exact hgo), happly]
  exact congrArg (Ev.mk · []) hlower

end Sys2Proof.Machine
end

section
/-! PROOF. The CUT RECORD SHORT frames of a line reset (R97, R200), and O56. -/

namespace Sys2Proof.Machine

/-- The CUT RECORD SHORT of an order that a line reset closes. -/
def resetRecord (st : StationNo) (x : OrderRec) (source : Half) (passes time water : Nat) : Frame :=
  ⟨0, 1, 0x81, num8 st.val ++ num8 x.slot.val ++ num16 x.order.tag ++ num8 x.order.job.val ++ num8 5
    ++ put16 source ++ num16 x.order.len ++ num16 x.order.wid ++ num8 passes ++ num32 time ++ num32 0
    ++ num32 water ++ List.replicate 16 0⟩

/-- R97: CPL's record of the active order names the record that it cut. -/
theorem failedRecord_reset (st : StationNo) (o : OrderRec) (water : Nat) (n : SlabNo) (t : Ticket) (ht : o.ticket = some t)
    (hn : o.sourceRecord = some n) : recordFrame (failedRecord st o .lineReset 0 water) =
      resetRecord st o (BitVec.ofNat 16 n.val) t.passes t.tEst water :=
  failedRecord_frame st o .lineReset 0 water n.val t ht (by simp only [recordSource, hn])

/-- R57: OQU's record names the source as it was received. -/
theorem closedRecord_reset (st : StationNo) (x : OrderRec) (passes time : Nat)
    (hp : (closedRecord st x .lineReset).passes = passes) (ht : (closedRecord st x .lineReset).tEst = time) :
    recordFrame (closedRecord st x .lineReset) =
      resetRecord st x (BitVec.ofNat 16 (sourceCode x.order.source)) passes time 0 := by
  rw [closedRecord_figures st x .lineReset passes time hp ht,
    show List.replicate 24 (0 : Byte) = num32 0 ++ (num32 0 ++ List.replicate 16 0) by decide, ← List.append_assoc,
    ← List.append_assoc]
  rfl

theorem closedRecord_ticket (st : StationNo) (x : OrderRec) (t : Ticket) (ht : x.ticket = some t) :
    recordFrame (closedRecord st x .lineReset) =
      resetRecord st x (BitVec.ofNat 16 (sourceCode x.order.source)) t.passes t.tEst 0 :=
  closedRecord_reset st x _ _ (by simp only [closedRecord, ht]) (by simp only [closedRecord, ht])

theorem closedRecord_untimed (st : StationNo) (x : OrderRec) (ht : x.ticket = none) :
    recordFrame (closedRecord st x .lineReset) =
      resetRecord st x (BitVec.ofNat 16 (sourceCode x.order.source)) 0 0 0 :=
  closedRecord_reset st x _ _ (by simp only [closedRecord, ht]) (by simp only [closedRecord, ht])

/-- Settles O56. -/
theorem lineResetEndsWithEveryStationInService : Obligations.LineResetEndsWithEveryStationInService := by
  refine ⟨fun tag s st reset hquiet hout hdrop hcov hothers hreset => ?_,
    fun code tag s hreset hq hi hwU hwD hroom hout hall => ?_,
    fun code tag s st x y j hreset hq hi hwU hwD hroom hout hall hz hx hb hc hj hs => ?_⟩
  · have h : RestsBut s.part st := ⟨hquiet, hout, hdrop, hcov, hothers⟩
    have hpart : ∀ stk jau reserved cpl oqu closed posts u, reset stk jau reserved cpl oqu closed posts u =
        resetPart s.part stk jau reserved cpl oqu (serviceContexts s.part closed) posts u := hreset
    refine ⟨fun hrest hslots hb hroom => ?_, fun hrest hslots hb => ?_,
      fun record lower c r hb hc hframes hr hU hD hrecord hlower => ?_⟩
    · rw [hpart]
      exact reset_rest tag s st h hrest hslots hb hroom
    · rw [hpart]
      exact reset_drains tag s st h hrest hb
    · subst hc
      have hframe : ∀ x source passes time water, record x source passes time water =
          resetRecord st x source passes time water := hrecord
      have hlow : ∀ j : Job, lower j = j.lower := fun j => (hlower j).trans (job_lower_eq j).symm
      refine ⟨fun a o t n slab holder ha hd he hchains hslots ho hstate ht hn hslab hcut => ?_,
        fun d o t n slab ha hd he hchains hslots ho hstate ht hsource hslab hres => ?_,
        fun x ha hd hone hx hothers hslot hstate ht => ?_,
        fun a d oa od x ta td n slab holder slabs source jobs hU hD ha hd hone hx hothers hslot hstate ht hoa hsa hta hna
          hslab hcut hod hsd htd hdeck hjobs => ?_⟩
      · subst ho
        have hring : s.part.oqu.set st { r with chains := [] } = s.part.oqu := by
          rw [← hchains, hr]
          exact Vector.set_getElem_self _
        have hact := reset_active tag s st h hb hframes a n slab holder r hr.symm ha hd he hslots hstate hn hslab hcut hU hD
        rw [hring, failedRecord_reset st a.order a.waterUsed n t ht hn] at hact
        rw [hpart, hframe, hlow]
        exact hact
      · subst ho
        have hring : s.part.oqu.set st { r with chains := [] } = s.part.oqu := by
          rw [← hchains, hr]
          exact Vector.set_getElem_self _
        have hact := reset_deck tag s st h hb hframes d r _ hr.symm ha hd he hslots hstate
          (freedSlabs_reserved st d.order s.part.stk.slabs n slab (sourceRecord_slab d.order n hsource) hslab hres) hU hD
        rw [hring, closedRecord_ticket st d.order t ht, hsource] at hact
        rw [hpart, hframe, hlow]
        exact hact
      · have hact := reset_ring tag s st h hb hframes x r hr.symm ha hd hone hx hothers hslot hstate hU
        rw [closedRecord_untimed st x ht] at hact
        rw [hpart, hframe]
        cases hsource : x.order.source <;> rw [hsource] at hact <;> exact hact
      · subst hoa hod
        have hslabs : freedSlabs st d.order (s.part.stk.slabs.set n (some { slab with state := .doubtful })) = slabs
            ∧ BitVec.ofNat 16 (sourceCode d.order.order.source) = source := by
          rcases hdeck with ⟨m, next, hm, hsource, hnext, hres, rfl, rfl⟩ | ⟨hsource, hnone, rfl, rfl⟩
          · rw [hsource]
            exact ⟨freedSlabs_reserved st d.order _ m next (sourceRecord_slab d.order m hsource)
              ((set_other s.part.stk.slabs n m _ hm).trans hnext) hres, rfl⟩
          · rw [hsource]
            exact ⟨freedSlabs_kept st d.order _ fun m _ hm => absurd (hnone.symm.trans hm) (by simp), rfl⟩
        obtain ⟨hslabs, rfl⟩ := hslabs
        rw [hlow] at hjobs
        have hact := reset_all tag s st h hb hframes a d x n slab holder r slabs jobs hr.symm ha hd hone hx hothers hslot
          hstate hsa hna hslab hcut hsd hslabs hjobs hU hD
        rw [failedRecord_reset st a.order a.waterUsed n ta hta hna, closedRecord_ticket st d.order td htd,
          closedRecord_untimed st x ht] at hact
        rw [hpart, hframe, hframe, hframe, hlow]
        cases hsource : x.order.source <;> rw [hsource] at hact <;> exact hact
  · refine (live_released s (event id) hreset).trans ?_
    rw [event_completes id s.part s.part code tag rfl hi hq hwU hwD hroom hout hall]
    rfl
  · subst hx hj
    refine (live_released s (event (drainOnce st)) hreset).trans ?_
    rw [event_completes (drainOnce st) s.part _ code tag (drainOnce_last st s.part y code tag hz hb hc hi hs) rfl hq hwU hwD
      hroom hout hall]
    rfl

end Sys2Proof.Machine
end
